-- ==== Sys2Proof/Word.lean ====
section
/-!
DEFINITION. The two widths of the machine: `XLEN` = 8 and `PCLEN` = 16 (00_scope.md R4).
Every register value is an unsigned number of its register's width (R5).
-/

namespace Sys2Proof

/-- A data byte: A, X, Y, SP and every memory location (R4, R10 to R13, R27). -/
abbrev Byte := BitVec 8

/-- An address and the program counter (R4, R14, R27). -/
abbrev Word := BitVec 16

end Sys2Proof
end

