-- ==== Sys2Proof/Syntax.lean ====
section
/-!
DEFINITION. The instructions: one constructor for each of the 151 rows of the opcode map (30_encoding.md R90, R91).
The operand is what stands in the instruction's own bytes (R60): an immediate `v`, a zero-page address `z`,
a 16-bit address `w`, a pointer address `p`, or a branch offset `o`. `zp,X` and `zp,Y` are `ZpX` and `ZpY`,
`(zp,X)` is `IndX`, `(zp),Y` is `IndY`. Every operand value is legal (R94).
-/

namespace Sys2Proof

/-- An instruction of the NMOS 6502's documented set, one constructor per row of R91. -/
inductive Instr where
  -- 41_load_store.md
  | ldaImm (v : Byte)
  | ldaZp (z : Byte)
  | ldaZpX (z : Byte)
  | ldaAbs (w : Word)
  | ldaAbsX (w : Word)
  | ldaAbsY (w : Word)
  | ldaIndX (z : Byte)
  | ldaIndY (z : Byte)
  | ldxImm (v : Byte)
  | ldxZp (z : Byte)
  | ldxZpY (z : Byte)
  | ldxAbs (w : Word)
  | ldxAbsY (w : Word)
  | ldyImm (v : Byte)
  | ldyZp (z : Byte)
  | ldyZpX (z : Byte)
  | ldyAbs (w : Word)
  | ldyAbsX (w : Word)
  | staZp (z : Byte)
  | staZpX (z : Byte)
  | staAbs (w : Word)
  | staAbsX (w : Word)
  | staAbsY (w : Word)
  | staIndX (z : Byte)
  | staIndY (z : Byte)
  | stxZp (z : Byte)
  | stxZpY (z : Byte)
  | stxAbs (w : Word)
  | styZp (z : Byte)
  | styZpX (z : Byte)
  | styAbs (w : Word)
  -- 42_transfer_stack.md
  | tax
  | tay
  | txa
  | tya
  | tsx
  | txs
  | pha
  | php
  | pla
  | plp
  -- 43_logic_arith.md
  | andImm (v : Byte)
  | andZp (z : Byte)
  | andZpX (z : Byte)
  | andAbs (w : Word)
  | andAbsX (w : Word)
  | andAbsY (w : Word)
  | andIndX (z : Byte)
  | andIndY (z : Byte)
  | oraImm (v : Byte)
  | oraZp (z : Byte)
  | oraZpX (z : Byte)
  | oraAbs (w : Word)
  | oraAbsX (w : Word)
  | oraAbsY (w : Word)
  | oraIndX (z : Byte)
  | oraIndY (z : Byte)
  | eorImm (v : Byte)
  | eorZp (z : Byte)
  | eorZpX (z : Byte)
  | eorAbs (w : Word)
  | eorAbsX (w : Word)
  | eorAbsY (w : Word)
  | eorIndX (z : Byte)
  | eorIndY (z : Byte)
  | bitZp (z : Byte)
  | bitAbs (w : Word)
  | adcImm (v : Byte)
  | adcZp (z : Byte)
  | adcZpX (z : Byte)
  | adcAbs (w : Word)
  | adcAbsX (w : Word)
  | adcAbsY (w : Word)
  | adcIndX (z : Byte)
  | adcIndY (z : Byte)
  | sbcImm (v : Byte)
  | sbcZp (z : Byte)
  | sbcZpX (z : Byte)
  | sbcAbs (w : Word)
  | sbcAbsX (w : Word)
  | sbcAbsY (w : Word)
  | sbcIndX (z : Byte)
  | sbcIndY (z : Byte)
  | cmpImm (v : Byte)
  | cmpZp (z : Byte)
  | cmpZpX (z : Byte)
  | cmpAbs (w : Word)
  | cmpAbsX (w : Word)
  | cmpAbsY (w : Word)
  | cmpIndX (z : Byte)
  | cmpIndY (z : Byte)
  | cpxImm (v : Byte)
  | cpxZp (z : Byte)
  | cpxAbs (w : Word)
  | cpyImm (v : Byte)
  | cpyZp (z : Byte)
  | cpyAbs (w : Word)
  -- 44_inc_dec_shift.md
  | incZp (z : Byte)
  | incZpX (z : Byte)
  | incAbs (w : Word)
  | incAbsX (w : Word)
  | decZp (z : Byte)
  | decZpX (z : Byte)
  | decAbs (w : Word)
  | decAbsX (w : Word)
  | inx
  | iny
  | dex
  | dey
  | aslZp (z : Byte)
  | aslZpX (z : Byte)
  | aslAbs (w : Word)
  | aslAbsX (w : Word)
  | aslAcc
  | lsrZp (z : Byte)
  | lsrZpX (z : Byte)
  | lsrAbs (w : Word)
  | lsrAbsX (w : Word)
  | lsrAcc
  | rolZp (z : Byte)
  | rolZpX (z : Byte)
  | rolAbs (w : Word)
  | rolAbsX (w : Word)
  | rolAcc
  | rorZp (z : Byte)
  | rorZpX (z : Byte)
  | rorAbs (w : Word)
  | rorAbsX (w : Word)
  | rorAcc
  -- 45_control_flow.md
  | jmpAbs (w : Word)
  | jmpInd (p : Word)
  | jsr (w : Word)
  | rts
  | bpl (o : Byte)
  | bmi (o : Byte)
  | bvc (o : Byte)
  | bvs (o : Byte)
  | bcc (o : Byte)
  | bcs (o : Byte)
  | bne (o : Byte)
  | beq (o : Byte)
  -- 46_flags_system.md
  | clc
  | sec
  | cli
  | sei
  | cld
  | sed
  | clv
  | nop
  | brk
  | rti
deriving DecidableEq, Repr

end Sys2Proof
end

