-- ==== Sys2Proof/WellFormed.lean ====
section
/-!
DEFINITION. Well-formedness: the 56 operations (30_encoding.md R90), the 13 addressing modes (R66), and the matrix of
R92 that says which operation exists in which mode. No operand VALUE is illegal (R94), so the only check on an
instruction is that its operation admits its mode; `STA #v`, `BIT #v`, `INC A` and `LDX zp,X` are the kind of
combination it refuses.
-/

namespace Sys2Proof

/-- The 56 mnemonics (R90). -/
inductive Operation where
  | ADC | AND | ASL | BCC | BCS | BEQ | BIT | BMI | BNE | BPL | BRK | BVC | BVS | CLC | CLD | CLI | CLV | CMP | CPX
  | CPY | DEC | DEX | DEY | EOR | INC | INX | INY | JMP | JSR | LDA | LDX | LDY | LSR | NOP | ORA | PHA | PHP | PLA
  | PLP | ROL | ROR | RTI | RTS | SBC | SEC | SED | SEI | STA | STX | STY | TAX | TAY | TSX | TXA | TXS | TYA
deriving DecidableEq, Repr

/-- The 13 addressing modes, by the short names of R66. -/
inductive Mode where
  | IMP | ACC | IMM | ZP | ZPX | ZPY | REL | ABS | ABSX | ABSY | IND | INDX | INDY
deriving DecidableEq, Repr

/-- The operation an instruction performs: its row's mnemonic (R91). -/
def Instr.operation : Instr → Operation
  | .ldaImm _ | .ldaZp _ | .ldaZpX _ | .ldaAbs _ | .ldaAbsX _ | .ldaAbsY _ | .ldaIndX _ | .ldaIndY _ => .LDA
  | .ldxImm _ | .ldxZp _ | .ldxZpY _ | .ldxAbs _ | .ldxAbsY _ => .LDX
  | .ldyImm _ | .ldyZp _ | .ldyZpX _ | .ldyAbs _ | .ldyAbsX _ => .LDY
  | .staZp _ | .staZpX _ | .staAbs _ | .staAbsX _ | .staAbsY _ | .staIndX _ | .staIndY _ => .STA
  | .stxZp _ | .stxZpY _ | .stxAbs _ => .STX
  | .styZp _ | .styZpX _ | .styAbs _ => .STY
  | .tax => .TAX
  | .tay => .TAY
  | .txa => .TXA
  | .tya => .TYA
  | .tsx => .TSX
  | .txs => .TXS
  | .pha => .PHA
  | .php => .PHP
  | .pla => .PLA
  | .plp => .PLP
  | .andImm _ | .andZp _ | .andZpX _ | .andAbs _ | .andAbsX _ | .andAbsY _ | .andIndX _ | .andIndY _ => .AND
  | .oraImm _ | .oraZp _ | .oraZpX _ | .oraAbs _ | .oraAbsX _ | .oraAbsY _ | .oraIndX _ | .oraIndY _ => .ORA
  | .eorImm _ | .eorZp _ | .eorZpX _ | .eorAbs _ | .eorAbsX _ | .eorAbsY _ | .eorIndX _ | .eorIndY _ => .EOR
  | .bitZp _ | .bitAbs _ => .BIT
  | .adcImm _ | .adcZp _ | .adcZpX _ | .adcAbs _ | .adcAbsX _ | .adcAbsY _ | .adcIndX _ | .adcIndY _ => .ADC
  | .sbcImm _ | .sbcZp _ | .sbcZpX _ | .sbcAbs _ | .sbcAbsX _ | .sbcAbsY _ | .sbcIndX _ | .sbcIndY _ => .SBC
  | .cmpImm _ | .cmpZp _ | .cmpZpX _ | .cmpAbs _ | .cmpAbsX _ | .cmpAbsY _ | .cmpIndX _ | .cmpIndY _ => .CMP
  | .cpxImm _ | .cpxZp _ | .cpxAbs _ => .CPX
  | .cpyImm _ | .cpyZp _ | .cpyAbs _ => .CPY
  | .incZp _ | .incZpX _ | .incAbs _ | .incAbsX _ => .INC
  | .decZp _ | .decZpX _ | .decAbs _ | .decAbsX _ => .DEC
  | .inx => .INX
  | .iny => .INY
  | .dex => .DEX
  | .dey => .DEY
  | .aslZp _ | .aslZpX _ | .aslAbs _ | .aslAbsX _ | .aslAcc => .ASL
  | .lsrZp _ | .lsrZpX _ | .lsrAbs _ | .lsrAbsX _ | .lsrAcc => .LSR
  | .rolZp _ | .rolZpX _ | .rolAbs _ | .rolAbsX _ | .rolAcc => .ROL
  | .rorZp _ | .rorZpX _ | .rorAbs _ | .rorAbsX _ | .rorAcc => .ROR
  | .jmpAbs _ | .jmpInd _ => .JMP
  | .jsr _ => .JSR
  | .rts => .RTS
  | .bpl _ => .BPL
  | .bmi _ => .BMI
  | .bvc _ => .BVC
  | .bvs _ => .BVS
  | .bcc _ => .BCC
  | .bcs _ => .BCS
  | .bne _ => .BNE
  | .beq _ => .BEQ
  | .clc => .CLC
  | .sec => .SEC
  | .cli => .CLI
  | .sei => .SEI
  | .cld => .CLD
  | .sed => .SED
  | .clv => .CLV
  | .nop => .NOP
  | .brk => .BRK
  | .rti => .RTI

/-- The addressing mode of an instruction (R91). -/
def Instr.mode : Instr → Mode
  | .ldaImm _ | .ldxImm _ | .ldyImm _ | .andImm _ | .oraImm _ | .eorImm _ | .adcImm _ | .sbcImm _ | .cmpImm _
  | .cpxImm _ | .cpyImm _ => .IMM
  | .ldaZp _ | .ldxZp _ | .ldyZp _ | .staZp _ | .stxZp _ | .styZp _ | .andZp _ | .oraZp _ | .eorZp _ | .bitZp _
  | .adcZp _ | .sbcZp _ | .cmpZp _ | .cpxZp _ | .cpyZp _ | .incZp _ | .decZp _ | .aslZp _ | .lsrZp _ | .rolZp _
  | .rorZp _ => .ZP
  | .ldaZpX _ | .ldyZpX _ | .staZpX _ | .styZpX _ | .andZpX _ | .oraZpX _ | .eorZpX _ | .adcZpX _ | .sbcZpX _
  | .cmpZpX _ | .incZpX _ | .decZpX _ | .aslZpX _ | .lsrZpX _ | .rolZpX _ | .rorZpX _ => .ZPX
  | .ldxZpY _ | .stxZpY _ => .ZPY
  | .ldaAbs _ | .ldxAbs _ | .ldyAbs _ | .staAbs _ | .stxAbs _ | .styAbs _ | .andAbs _ | .oraAbs _ | .eorAbs _
  | .bitAbs _ | .adcAbs _ | .sbcAbs _ | .cmpAbs _ | .cpxAbs _ | .cpyAbs _ | .incAbs _ | .decAbs _ | .aslAbs _
  | .lsrAbs _ | .rolAbs _ | .rorAbs _ | .jmpAbs _ | .jsr _ => .ABS
  | .ldaAbsX _ | .ldyAbsX _ | .staAbsX _ | .andAbsX _ | .oraAbsX _ | .eorAbsX _ | .adcAbsX _ | .sbcAbsX _
  | .cmpAbsX _ | .incAbsX _ | .decAbsX _ | .aslAbsX _ | .lsrAbsX _ | .rolAbsX _ | .rorAbsX _ => .ABSX
  | .ldaAbsY _ | .ldxAbsY _ | .staAbsY _ | .andAbsY _ | .oraAbsY _ | .eorAbsY _ | .adcAbsY _ | .sbcAbsY _
  | .cmpAbsY _ => .ABSY
  | .jmpInd _ => .IND
  | .ldaIndX _ | .staIndX _ | .andIndX _ | .oraIndX _ | .eorIndX _ | .adcIndX _ | .sbcIndX _ | .cmpIndX _ => .INDX
  | .ldaIndY _ | .staIndY _ | .andIndY _ | .oraIndY _ | .eorIndY _ | .adcIndY _ | .sbcIndY _ | .cmpIndY _ => .INDY
  | .aslAcc | .lsrAcc | .rolAcc | .rorAcc => .ACC
  | .bpl _ | .bmi _ | .bvc _ | .bvs _ | .bcc _ | .bcs _ | .bne _ | .beq _ => .REL
  | .tax | .tay | .txa | .tya | .tsx | .txs | .pha | .php | .pla | .plp | .inx | .iny | .dex | .dey | .rts | .clc
  | .sec | .cli | .sei | .cld | .sed | .clv | .nop | .brk | .rti => .IMP

/-- The modes in which an operation exists: the rows and columns of R92. -/
def Operation.modes : Operation → List Mode
  | .LDA | .AND | .ORA | .EOR | .ADC | .SBC | .CMP => [.IMM, .ZP, .ZPX, .ABS, .ABSX, .ABSY, .INDX, .INDY]
  | .LDX => [.IMM, .ZP, .ZPY, .ABS, .ABSY]
  | .LDY => [.IMM, .ZP, .ZPX, .ABS, .ABSX]
  | .STA => [.ZP, .ZPX, .ABS, .ABSX, .ABSY, .INDX, .INDY]
  | .STX => [.ZP, .ZPY, .ABS]
  | .STY => [.ZP, .ZPX, .ABS]
  | .TAX | .TAY | .TXA | .TYA | .TSX | .TXS | .PHA | .PHP | .PLA | .PLP | .INX | .INY | .DEX | .DEY | .RTS | .CLC
  | .SEC | .CLI | .SEI | .CLD | .SED | .CLV | .NOP | .BRK | .RTI => [.IMP]
  | .BIT => [.ZP, .ABS]
  | .CPX | .CPY => [.IMM, .ZP, .ABS]
  | .INC | .DEC => [.ZP, .ZPX, .ABS, .ABSX]
  | .ASL | .LSR | .ROL | .ROR => [.ZP, .ZPX, .ABS, .ABSX, .ACC]
  | .JMP => [.ABS, .IND]
  | .JSR => [.ABS]
  | .BPL | .BMI | .BVC | .BVS | .BCC | .BCS | .BNE | .BEQ => [.REL]

/-- R92: the operation has an opcode in this mode. -/
def Operation.admits (op : Operation) (m : Mode) : Bool := op.modes.contains m

/-- The check on an instruction: its operation admits its mode (R92, R94). -/
def Instr.wellFormed (i : Instr) : Bool := i.operation.admits i.mode

end Sys2Proof
end

