-- ==== Sys2Proof/Decode.lean ====
section
/-!
DEFINITION. The decoder and the encoder (30_encoding.md R60 to R64, R82, R91, R93), with the byte-order and bit-field
helpers both and the machine use. The decoder is a table of 151 rows indexed by the opcode byte (R62); the encoder is
written from the matrix of R92, so that the round trip compares two transcriptions.
-/

namespace Sys2Proof

/-! ### Byte order and fields (R5, R42) -/

/-- `{hi, lo}` = `hi * 256 + lo` (R5). -/
def joinBytes (hi lo : Byte) : Word := BitVec.ofNat 16 (hi.toNat * 256 + lo.toNat)

/-- `w[7:0]`, the low byte (R5). -/
def loByte (w : Word) : Byte := BitVec.ofNat 8 w.toNat

/-- `w[15:8]`, the high byte: the page of an address (R5). -/
def hiByte (w : Word) : Byte := BitVec.ofNat 8 (w.toNat / 256)

/-- `zext_16(b)` (R5): a byte as a zero-page address or as an index. -/
def zext (b : Byte) : Word := b.setWidth 16

/-- `sext_8(b)` (R5) as a 16-bit two's complement number: only branch offsets are sign-extended (R6, R73). -/
def sext (b : Byte) : Word := b.signExtend 16

/-! ### The descriptor table (R62, R91) -/

/-- What the decoder gives for an opcode byte (R62). -/
structure Descriptor where
  operation : Operation
  mode : Mode
  baseCycles : Nat
  pageCrossPenalty : Bool
deriving DecidableEq, Repr

/-- A row of R91, with the instruction it stands for as a function of the two bytes after the opcode. -/
structure OpcodeRow where
  opcode : Byte
  descriptor : Descriptor
  make : Byte → Byte → Instr

/-- A row whose instruction has no operand byte (format F1, R60). -/
def row0 (opcode : Byte) (op : Operation) (m : Mode) (cycles : Nat) (i : Instr) : OpcodeRow :=
  ⟨opcode, ⟨op, m, cycles, false⟩, fun _ _ => i⟩

/-- A row whose instruction has one operand byte (format F2, R60). -/
def row1 (opcode : Byte) (op : Operation) (m : Mode) (cycles : Nat) (penalty : Bool) (k : Byte → Instr) : OpcodeRow :=
  ⟨opcode, ⟨op, m, cycles, penalty⟩, fun b1 _ => k b1⟩

/-- A row whose instruction has two operand bytes, the low byte first (format F3, R60, R65). -/
def row2 (opcode : Byte) (op : Operation) (m : Mode) (cycles : Nat) (penalty : Bool) (k : Word → Instr) : OpcodeRow :=
  ⟨opcode, ⟨op, m, cycles, penalty⟩, fun b1 b2 => k (joinBytes b2 b1)⟩

/-- R91, opcodes 0x00 to 0x1F. -/
def opcodeRows00 : List OpcodeRow := [
  row0 0x00#8 .BRK .IMP 7 .brk,
  row1 0x01#8 .ORA .INDX 6 false .oraIndX,
  row1 0x05#8 .ORA .ZP 3 false .oraZp,
  row1 0x06#8 .ASL .ZP 5 false .aslZp,
  row0 0x08#8 .PHP .IMP 3 .php,
  row1 0x09#8 .ORA .IMM 2 false .oraImm,
  row0 0x0A#8 .ASL .ACC 2 .aslAcc,
  row2 0x0D#8 .ORA .ABS 4 false .oraAbs,
  row2 0x0E#8 .ASL .ABS 6 false .aslAbs,
  row1 0x10#8 .BPL .REL 2 false .bpl,
  row1 0x11#8 .ORA .INDY 5 true .oraIndY,
  row1 0x15#8 .ORA .ZPX 4 false .oraZpX,
  row1 0x16#8 .ASL .ZPX 6 false .aslZpX,
  row0 0x18#8 .CLC .IMP 2 .clc,
  row2 0x19#8 .ORA .ABSY 4 true .oraAbsY,
  row2 0x1D#8 .ORA .ABSX 4 true .oraAbsX,
  row2 0x1E#8 .ASL .ABSX 7 false .aslAbsX]

/-- R91, opcodes 0x20 to 0x3F. -/
def opcodeRows20 : List OpcodeRow := [
  row2 0x20#8 .JSR .ABS 6 false .jsr,
  row1 0x21#8 .AND .INDX 6 false .andIndX,
  row1 0x24#8 .BIT .ZP 3 false .bitZp,
  row1 0x25#8 .AND .ZP 3 false .andZp,
  row1 0x26#8 .ROL .ZP 5 false .rolZp,
  row0 0x28#8 .PLP .IMP 4 .plp,
  row1 0x29#8 .AND .IMM 2 false .andImm,
  row0 0x2A#8 .ROL .ACC 2 .rolAcc,
  row2 0x2C#8 .BIT .ABS 4 false .bitAbs,
  row2 0x2D#8 .AND .ABS 4 false .andAbs,
  row2 0x2E#8 .ROL .ABS 6 false .rolAbs,
  row1 0x30#8 .BMI .REL 2 false .bmi,
  row1 0x31#8 .AND .INDY 5 true .andIndY,
  row1 0x35#8 .AND .ZPX 4 false .andZpX,
  row1 0x36#8 .ROL .ZPX 6 false .rolZpX,
  row0 0x38#8 .SEC .IMP 2 .sec,
  row2 0x39#8 .AND .ABSY 4 true .andAbsY,
  row2 0x3D#8 .AND .ABSX 4 true .andAbsX,
  row2 0x3E#8 .ROL .ABSX 7 false .rolAbsX]

/-- R91, opcodes 0x40 to 0x5F. -/
def opcodeRows40 : List OpcodeRow := [
  row0 0x40#8 .RTI .IMP 6 .rti,
  row1 0x41#8 .EOR .INDX 6 false .eorIndX,
  row1 0x45#8 .EOR .ZP 3 false .eorZp,
  row1 0x46#8 .LSR .ZP 5 false .lsrZp,
  row0 0x48#8 .PHA .IMP 3 .pha,
  row1 0x49#8 .EOR .IMM 2 false .eorImm,
  row0 0x4A#8 .LSR .ACC 2 .lsrAcc,
  row2 0x4C#8 .JMP .ABS 3 false .jmpAbs,
  row2 0x4D#8 .EOR .ABS 4 false .eorAbs,
  row2 0x4E#8 .LSR .ABS 6 false .lsrAbs,
  row1 0x50#8 .BVC .REL 2 false .bvc,
  row1 0x51#8 .EOR .INDY 5 true .eorIndY,
  row1 0x55#8 .EOR .ZPX 4 false .eorZpX,
  row1 0x56#8 .LSR .ZPX 6 false .lsrZpX,
  row0 0x58#8 .CLI .IMP 2 .cli,
  row2 0x59#8 .EOR .ABSY 4 true .eorAbsY,
  row2 0x5D#8 .EOR .ABSX 4 true .eorAbsX,
  row2 0x5E#8 .LSR .ABSX 7 false .lsrAbsX]

/-- R91, opcodes 0x60 to 0x7F. -/
def opcodeRows60 : List OpcodeRow := [
  row0 0x60#8 .RTS .IMP 6 .rts,
  row1 0x61#8 .ADC .INDX 6 false .adcIndX,
  row1 0x65#8 .ADC .ZP 3 false .adcZp,
  row1 0x66#8 .ROR .ZP 5 false .rorZp,
  row0 0x68#8 .PLA .IMP 4 .pla,
  row1 0x69#8 .ADC .IMM 2 false .adcImm,
  row0 0x6A#8 .ROR .ACC 2 .rorAcc,
  row2 0x6C#8 .JMP .IND 5 false .jmpInd,
  row2 0x6D#8 .ADC .ABS 4 false .adcAbs,
  row2 0x6E#8 .ROR .ABS 6 false .rorAbs,
  row1 0x70#8 .BVS .REL 2 false .bvs,
  row1 0x71#8 .ADC .INDY 5 true .adcIndY,
  row1 0x75#8 .ADC .ZPX 4 false .adcZpX,
  row1 0x76#8 .ROR .ZPX 6 false .rorZpX,
  row0 0x78#8 .SEI .IMP 2 .sei,
  row2 0x79#8 .ADC .ABSY 4 true .adcAbsY,
  row2 0x7D#8 .ADC .ABSX 4 true .adcAbsX,
  row2 0x7E#8 .ROR .ABSX 7 false .rorAbsX]

/-- R91, opcodes 0x80 to 0x9F. -/
def opcodeRows80 : List OpcodeRow := [
  row1 0x81#8 .STA .INDX 6 false .staIndX,
  row1 0x84#8 .STY .ZP 3 false .styZp,
  row1 0x85#8 .STA .ZP 3 false .staZp,
  row1 0x86#8 .STX .ZP 3 false .stxZp,
  row0 0x88#8 .DEY .IMP 2 .dey,
  row0 0x8A#8 .TXA .IMP 2 .txa,
  row2 0x8C#8 .STY .ABS 4 false .styAbs,
  row2 0x8D#8 .STA .ABS 4 false .staAbs,
  row2 0x8E#8 .STX .ABS 4 false .stxAbs,
  row1 0x90#8 .BCC .REL 2 false .bcc,
  row1 0x91#8 .STA .INDY 6 false .staIndY,
  row1 0x94#8 .STY .ZPX 4 false .styZpX,
  row1 0x95#8 .STA .ZPX 4 false .staZpX,
  row1 0x96#8 .STX .ZPY 4 false .stxZpY,
  row0 0x98#8 .TYA .IMP 2 .tya,
  row2 0x99#8 .STA .ABSY 5 false .staAbsY,
  row0 0x9A#8 .TXS .IMP 2 .txs,
  row2 0x9D#8 .STA .ABSX 5 false .staAbsX]

/-- R91, opcodes 0xA0 to 0xBF. -/
def opcodeRowsA0 : List OpcodeRow := [
  row1 0xA0#8 .LDY .IMM 2 false .ldyImm,
  row1 0xA1#8 .LDA .INDX 6 false .ldaIndX,
  row1 0xA2#8 .LDX .IMM 2 false .ldxImm,
  row1 0xA4#8 .LDY .ZP 3 false .ldyZp,
  row1 0xA5#8 .LDA .ZP 3 false .ldaZp,
  row1 0xA6#8 .LDX .ZP 3 false .ldxZp,
  row0 0xA8#8 .TAY .IMP 2 .tay,
  row1 0xA9#8 .LDA .IMM 2 false .ldaImm,
  row0 0xAA#8 .TAX .IMP 2 .tax,
  row2 0xAC#8 .LDY .ABS 4 false .ldyAbs,
  row2 0xAD#8 .LDA .ABS 4 false .ldaAbs,
  row2 0xAE#8 .LDX .ABS 4 false .ldxAbs,
  row1 0xB0#8 .BCS .REL 2 false .bcs,
  row1 0xB1#8 .LDA .INDY 5 true .ldaIndY,
  row1 0xB4#8 .LDY .ZPX 4 false .ldyZpX,
  row1 0xB5#8 .LDA .ZPX 4 false .ldaZpX,
  row1 0xB6#8 .LDX .ZPY 4 false .ldxZpY,
  row0 0xB8#8 .CLV .IMP 2 .clv,
  row2 0xB9#8 .LDA .ABSY 4 true .ldaAbsY,
  row0 0xBA#8 .TSX .IMP 2 .tsx,
  row2 0xBC#8 .LDY .ABSX 4 true .ldyAbsX,
  row2 0xBD#8 .LDA .ABSX 4 true .ldaAbsX,
  row2 0xBE#8 .LDX .ABSY 4 true .ldxAbsY]

/-- R91, opcodes 0xC0 to 0xDF. -/
def opcodeRowsC0 : List OpcodeRow := [
  row1 0xC0#8 .CPY .IMM 2 false .cpyImm,
  row1 0xC1#8 .CMP .INDX 6 false .cmpIndX,
  row1 0xC4#8 .CPY .ZP 3 false .cpyZp,
  row1 0xC5#8 .CMP .ZP 3 false .cmpZp,
  row1 0xC6#8 .DEC .ZP 5 false .decZp,
  row0 0xC8#8 .INY .IMP 2 .iny,
  row1 0xC9#8 .CMP .IMM 2 false .cmpImm,
  row0 0xCA#8 .DEX .IMP 2 .dex,
  row2 0xCC#8 .CPY .ABS 4 false .cpyAbs,
  row2 0xCD#8 .CMP .ABS 4 false .cmpAbs,
  row2 0xCE#8 .DEC .ABS 6 false .decAbs,
  row1 0xD0#8 .BNE .REL 2 false .bne,
  row1 0xD1#8 .CMP .INDY 5 true .cmpIndY,
  row1 0xD5#8 .CMP .ZPX 4 false .cmpZpX,
  row1 0xD6#8 .DEC .ZPX 6 false .decZpX,
  row0 0xD8#8 .CLD .IMP 2 .cld,
  row2 0xD9#8 .CMP .ABSY 4 true .cmpAbsY,
  row2 0xDD#8 .CMP .ABSX 4 true .cmpAbsX,
  row2 0xDE#8 .DEC .ABSX 7 false .decAbsX]

/-- R91, opcodes 0xE0 to 0xFF. -/
def opcodeRowsE0 : List OpcodeRow := [
  row1 0xE0#8 .CPX .IMM 2 false .cpxImm,
  row1 0xE1#8 .SBC .INDX 6 false .sbcIndX,
  row1 0xE4#8 .CPX .ZP 3 false .cpxZp,
  row1 0xE5#8 .SBC .ZP 3 false .sbcZp,
  row1 0xE6#8 .INC .ZP 5 false .incZp,
  row0 0xE8#8 .INX .IMP 2 .inx,
  row1 0xE9#8 .SBC .IMM 2 false .sbcImm,
  row0 0xEA#8 .NOP .IMP 2 .nop,
  row2 0xEC#8 .CPX .ABS 4 false .cpxAbs,
  row2 0xED#8 .SBC .ABS 4 false .sbcAbs,
  row2 0xEE#8 .INC .ABS 6 false .incAbs,
  row1 0xF0#8 .BEQ .REL 2 false .beq,
  row1 0xF1#8 .SBC .INDY 5 true .sbcIndY,
  row1 0xF5#8 .SBC .ZPX 4 false .sbcZpX,
  row1 0xF6#8 .INC .ZPX 6 false .incZpX,
  row0 0xF8#8 .SED .IMP 2 .sed,
  row2 0xF9#8 .SBC .ABSY 4 true .sbcAbsY,
  row2 0xFD#8 .SBC .ABSX 4 true .sbcAbsX,
  row2 0xFE#8 .INC .ABSX 7 false .incAbsX]

/-- The complete decoder table (R91). -/
def opcodeTable : List OpcodeRow :=
  opcodeRows00 ++ opcodeRows20 ++ opcodeRows40 ++ opcodeRows60 ++ opcodeRows80 ++ opcodeRowsA0 ++ opcodeRowsC0 ++ opcodeRowsE0

/-- The rows of the table that an opcode byte can stand in: one of the eight lists, by the byte's top three bits. -/
def rowsNear (opcode : Byte) : List OpcodeRow :=
  if opcode < 0x80#8 then
    if opcode < 0x40#8 then if opcode < 0x20#8 then opcodeRows00 else opcodeRows20
    else if opcode < 0x60#8 then opcodeRows40 else opcodeRows60
  else
    if opcode < 0xC0#8 then if opcode < 0xA0#8 then opcodeRows80 else opcodeRowsA0
    else if opcode < 0xE0#8 then opcodeRowsC0 else opcodeRowsE0

/-- The row of an opcode byte. -/
def findRow (opcode : Byte) : Option OpcodeRow := (rowsNear opcode).find? (fun r => r.opcode == opcode)

/-- `Decode` of R62: the descriptor of an opcode byte, or nothing for an unknown opcode. -/
def descriptorOf (opcode : Byte) : Option Descriptor := (findRow opcode).map OpcodeRow.descriptor

/-- The number of operand bytes of each mode (R60, R82). -/
def Mode.operandCount : Mode → Nat
  | .IMP | .ACC => 0
  | .IMM | .ZP | .ZPX | .ZPY | .REL | .INDX | .INDY => 1
  | .ABS | .ABSX | .ABSY | .IND => 2

/-- The instruction length of each mode, the opcode byte included (R82). -/
def Mode.length (m : Mode) : Nat := 1 + m.operandCount

/-- The instruction's length in bytes (R61, R82). -/
def Instr.length (i : Instr) : Nat := i.mode.length

/-- Why a byte string is no instruction. -/
inductive DecodeError where
  | noBytes                        -- the string is empty
  | unknownOpcode (byte : Byte)    -- the first byte is one of the 105 of R93
  | truncated (byte : Byte)        -- a legal opcode with fewer operand bytes than its mode needs
deriving DecidableEq, Repr

/-- The decoder: the instruction at the head of a byte string and the bytes after it. Only the opcode byte selects the
row (R63); the length follows from the row's mode (R61). -/
def decode : List Byte → Except DecodeError (Instr × List Byte)
  | [] => .error .noBytes
  | opcode :: rest =>
    match findRow opcode with
    | none => .error (.unknownOpcode opcode)
    | some r =>
      if rest.length < r.descriptor.mode.operandCount then .error (.truncated opcode)
      else .ok (r.make (rest.getD 0 0#8) (rest.getD 1 0#8), rest.drop r.descriptor.mode.operandCount)

/-! ### The encoder (R92) -/

/-- The opcode byte of an instruction: the matrix of R92 and the list under it. -/
def Instr.opcode : Instr → Byte
  | .ldaImm _ => 0xA9#8 | .ldaZp _ => 0xA5#8 | .ldaZpX _ => 0xB5#8 | .ldaAbs _ => 0xAD#8 | .ldaAbsX _ => 0xBD#8
  | .ldaAbsY _ => 0xB9#8 | .ldaIndX _ => 0xA1#8 | .ldaIndY _ => 0xB1#8
  | .ldxImm _ => 0xA2#8 | .ldxZp _ => 0xA6#8 | .ldxZpY _ => 0xB6#8 | .ldxAbs _ => 0xAE#8 | .ldxAbsY _ => 0xBE#8
  | .ldyImm _ => 0xA0#8 | .ldyZp _ => 0xA4#8 | .ldyZpX _ => 0xB4#8 | .ldyAbs _ => 0xAC#8 | .ldyAbsX _ => 0xBC#8
  | .staZp _ => 0x85#8 | .staZpX _ => 0x95#8 | .staAbs _ => 0x8D#8 | .staAbsX _ => 0x9D#8 | .staAbsY _ => 0x99#8
  | .staIndX _ => 0x81#8 | .staIndY _ => 0x91#8
  | .stxZp _ => 0x86#8 | .stxZpY _ => 0x96#8 | .stxAbs _ => 0x8E#8
  | .styZp _ => 0x84#8 | .styZpX _ => 0x94#8 | .styAbs _ => 0x8C#8
  | .tax => 0xAA#8
  | .tay => 0xA8#8
  | .txa => 0x8A#8
  | .tya => 0x98#8
  | .tsx => 0xBA#8
  | .txs => 0x9A#8
  | .pha => 0x48#8
  | .php => 0x08#8
  | .pla => 0x68#8
  | .plp => 0x28#8
  | .andImm _ => 0x29#8 | .andZp _ => 0x25#8 | .andZpX _ => 0x35#8 | .andAbs _ => 0x2D#8 | .andAbsX _ => 0x3D#8
  | .andAbsY _ => 0x39#8 | .andIndX _ => 0x21#8 | .andIndY _ => 0x31#8
  | .oraImm _ => 0x09#8 | .oraZp _ => 0x05#8 | .oraZpX _ => 0x15#8 | .oraAbs _ => 0x0D#8 | .oraAbsX _ => 0x1D#8
  | .oraAbsY _ => 0x19#8 | .oraIndX _ => 0x01#8 | .oraIndY _ => 0x11#8
  | .eorImm _ => 0x49#8 | .eorZp _ => 0x45#8 | .eorZpX _ => 0x55#8 | .eorAbs _ => 0x4D#8 | .eorAbsX _ => 0x5D#8
  | .eorAbsY _ => 0x59#8 | .eorIndX _ => 0x41#8 | .eorIndY _ => 0x51#8
  | .bitZp _ => 0x24#8 | .bitAbs _ => 0x2C#8
  | .adcImm _ => 0x69#8 | .adcZp _ => 0x65#8 | .adcZpX _ => 0x75#8 | .adcAbs _ => 0x6D#8 | .adcAbsX _ => 0x7D#8
  | .adcAbsY _ => 0x79#8 | .adcIndX _ => 0x61#8 | .adcIndY _ => 0x71#8
  | .sbcImm _ => 0xE9#8 | .sbcZp _ => 0xE5#8 | .sbcZpX _ => 0xF5#8 | .sbcAbs _ => 0xED#8 | .sbcAbsX _ => 0xFD#8
  | .sbcAbsY _ => 0xF9#8 | .sbcIndX _ => 0xE1#8 | .sbcIndY _ => 0xF1#8
  | .cmpImm _ => 0xC9#8 | .cmpZp _ => 0xC5#8 | .cmpZpX _ => 0xD5#8 | .cmpAbs _ => 0xCD#8 | .cmpAbsX _ => 0xDD#8
  | .cmpAbsY _ => 0xD9#8 | .cmpIndX _ => 0xC1#8 | .cmpIndY _ => 0xD1#8
  | .cpxImm _ => 0xE0#8 | .cpxZp _ => 0xE4#8 | .cpxAbs _ => 0xEC#8
  | .cpyImm _ => 0xC0#8 | .cpyZp _ => 0xC4#8 | .cpyAbs _ => 0xCC#8
  | .incZp _ => 0xE6#8 | .incZpX _ => 0xF6#8 | .incAbs _ => 0xEE#8 | .incAbsX _ => 0xFE#8
  | .decZp _ => 0xC6#8 | .decZpX _ => 0xD6#8 | .decAbs _ => 0xCE#8 | .decAbsX _ => 0xDE#8
  | .inx => 0xE8#8
  | .iny => 0xC8#8
  | .dex => 0xCA#8
  | .dey => 0x88#8
  | .aslZp _ => 0x06#8 | .aslZpX _ => 0x16#8 | .aslAbs _ => 0x0E#8 | .aslAbsX _ => 0x1E#8 | .aslAcc => 0x0A#8
  | .lsrZp _ => 0x46#8 | .lsrZpX _ => 0x56#8 | .lsrAbs _ => 0x4E#8 | .lsrAbsX _ => 0x5E#8 | .lsrAcc => 0x4A#8
  | .rolZp _ => 0x26#8 | .rolZpX _ => 0x36#8 | .rolAbs _ => 0x2E#8 | .rolAbsX _ => 0x3E#8 | .rolAcc => 0x2A#8
  | .rorZp _ => 0x66#8 | .rorZpX _ => 0x76#8 | .rorAbs _ => 0x6E#8 | .rorAbsX _ => 0x7E#8 | .rorAcc => 0x6A#8
  | .jmpAbs _ => 0x4C#8 | .jmpInd _ => 0x6C#8
  | .jsr _ => 0x20#8
  | .rts => 0x60#8
  | .bpl _ => 0x10#8
  | .bmi _ => 0x30#8
  | .bvc _ => 0x50#8
  | .bvs _ => 0x70#8
  | .bcc _ => 0x90#8
  | .bcs _ => 0xB0#8
  | .bne _ => 0xD0#8
  | .beq _ => 0xF0#8
  | .clc => 0x18#8
  | .sec => 0x38#8
  | .cli => 0x58#8
  | .sei => 0x78#8
  | .cld => 0xD8#8
  | .sed => 0xF8#8
  | .clv => 0xB8#8
  | .nop => 0xEA#8
  | .brk => 0x00#8
  | .rti => 0x40#8

/-- The operand bytes of an instruction, in address order: a 16-bit operand has its low byte first (R60, R65). -/
def Instr.operandBytes : Instr → List Byte
  | .tax | .tay | .txa | .tya | .tsx | .txs | .pha | .php | .pla | .plp | .inx | .iny | .dex | .dey | .aslAcc
  | .lsrAcc | .rolAcc | .rorAcc | .rts | .clc | .sec | .cli | .sei | .cld | .sed | .clv | .nop | .brk | .rti => []
  | .ldaImm b | .ldaZp b | .ldaZpX b | .ldaIndX b | .ldaIndY b | .ldxImm b | .ldxZp b | .ldxZpY b | .ldyImm b
  | .ldyZp b | .ldyZpX b | .staZp b | .staZpX b | .staIndX b | .staIndY b | .stxZp b | .stxZpY b | .styZp b
  | .styZpX b | .andImm b | .andZp b | .andZpX b | .andIndX b | .andIndY b | .oraImm b | .oraZp b | .oraZpX b
  | .oraIndX b | .oraIndY b | .eorImm b | .eorZp b | .eorZpX b | .eorIndX b | .eorIndY b | .bitZp b | .adcImm b
  | .adcZp b | .adcZpX b | .adcIndX b | .adcIndY b | .sbcImm b | .sbcZp b | .sbcZpX b | .sbcIndX b | .sbcIndY b
  | .cmpImm b | .cmpZp b | .cmpZpX b | .cmpIndX b | .cmpIndY b | .cpxImm b | .cpxZp b | .cpyImm b | .cpyZp b
  | .incZp b | .incZpX b | .decZp b | .decZpX b | .aslZp b | .aslZpX b | .lsrZp b | .lsrZpX b | .rolZp b | .rolZpX b
  | .rorZp b | .rorZpX b | .bpl b | .bmi b | .bvc b | .bvs b | .bcc b | .bcs b | .bne b | .beq b => [b]
  | .ldaAbs w | .ldaAbsX w | .ldaAbsY w | .ldxAbs w | .ldxAbsY w | .ldyAbs w | .ldyAbsX w | .staAbs w | .staAbsX w
  | .staAbsY w | .stxAbs w | .styAbs w | .andAbs w | .andAbsX w | .andAbsY w | .oraAbs w | .oraAbsX w | .oraAbsY w
  | .eorAbs w | .eorAbsX w | .eorAbsY w | .bitAbs w | .adcAbs w | .adcAbsX w | .adcAbsY w | .sbcAbs w | .sbcAbsX w
  | .sbcAbsY w | .cmpAbs w | .cmpAbsX w | .cmpAbsY w | .cpxAbs w | .cpyAbs w | .incAbs w | .incAbsX w | .decAbs w
  | .decAbsX w | .aslAbs w | .aslAbsX w | .lsrAbs w | .lsrAbsX w | .rolAbs w | .rolAbsX w | .rorAbs w | .rorAbsX w
  | .jmpAbs w | .jmpInd w | .jsr w => [loByte w, hiByte w]

/-- The bytes of an instruction in address order (R60). -/
def encode (i : Instr) : List Byte := i.opcode :: i.operandBytes

/-! ### Instructions numbered as spec/opcode_table.json numbers their bits -/

/-- Byte `k` of an instruction whose low `nbits` bits are `w` and whose other bits are 0: bits 7..0 are the opcode byte,
bits 15..8 the byte after it, and so on. -/
def tableByte (nbits w k : Nat) : Byte := BitVec.ofNat 8 (w % 2 ^ nbits / 256 ^ k)

/-- The instruction the decoder reads from a table row's bits, the absent operand bytes being 0. -/
def decodeTableWord (nbits w : Nat) : Option Instr :=
  match decode [tableByte nbits w 0, tableByte nbits w 1, tableByte nbits w 2] with
  | .ok (i, _) => some i
  | .error _ => none

end Sys2Proof
end

