-- ==== Sys2Proof/Config.lean ====
section
/-!
DEFINITION. The implementation parameters of 00_scope.md R4 that `State.reset` and the reference memory need.
The open parameters (`POWERUP_*`, `MEM_INIT`, `IRQ_NMI_INPUTS`) are arguments or state in the model
(`State.new`, `State.mem`, `State.inputs`): what stands here is only the one value `State.reset` takes for each.
-/

namespace Sys2Proof.Config

/-- `POWERUP_A`. DESIGN CHOICE (log 1, unsafe): R29 leaves the power-up accumulator unspecified. -/
def powerUpA : Byte := 0x00#8

/-- `POWERUP_X`. DESIGN CHOICE (log 1, unsafe): R29 leaves the power-up X unspecified. -/
def powerUpX : Byte := 0x00#8

/-- `POWERUP_Y`. DESIGN CHOICE (log 1, unsafe): R29 leaves the power-up Y unspecified. -/
def powerUpY : Byte := 0x00#8

/-- `SP_RESET`: the stack pointer after `new` and after `reset()` (R4, R29, R261; 92 D4, D8). -/
def spReset : Byte := 0xFD#8

/-- What an address reads as when the memory lists nothing for it: the reference memory is a flat array that starts
as all zeros (92 D16; R40 "conventionally zero"). DESIGN CHOICE (log 2, unsafe): `MEM_INIT` is the host's, and any
other initial contents is written as a listing of `State.mem`. -/
def unlistedByte : Byte := 0x00#8

end Sys2Proof.Config
end

