-- ==== Sys2Proof/Machine/State.lean ====
section
/-!
DEFINITION. The state of the machine (10_state.md R10 to R29), the reasons a step can stop, and the state after reset.
Beside the register file it holds the host's Memory (20_memory.md R40), the interrupt inputs where the parameter
`IRQ_NMI_INPUTS` is `present` (60_exceptions.md R236 to R238), the cycle accumulator of the `run` call in progress
(40_execution_engine.md R107) and the list of the port calls made (20_memory.md R45).
-/

namespace Sys2Proof.Machine

/-- The host's memory: the bytes that differ from `Config.unlistedByte`, by rising address (`Memory.wf`). -/
abbrev Memory := List Host.Cell

/-- One call of the memory port (R40): `read(address) -> value` or `write(address, value)`. -/
inductive PortCall where
  | read (address : Word) (value : Byte)
  | write (address : Word) (value : Byte)
deriving DecidableEq, Repr

/-- The interrupt request side of the core where `IRQ_NMI_INPUTS` is `present` (R236 to R238): the levels the host
presents, the level of `nmi` at the last step boundary (which the edge of R238 is compared with), and the latch. -/
structure InterruptInputs where
  irq : Bool
  nmi : Bool
  nmiLast : Bool
  nmiPending : Bool
deriving DecidableEq, Repr

/-- The machine. `inputs` is `none` where `IRQ_NMI_INPUTS` is `absent`, the default (R236). `cycles` is the total of
R100 for the `run` call in progress; `bus` is every port call so far, oldest first, the MODEL's own record (log 4): no
transition reads either (R104). -/
structure State where
  a : Byte
  x : Byte
  y : Byte
  sp : Byte
  pc : Word
  n : Bool
  v : Bool
  d : Bool
  i : Bool
  z : Bool
  c : Bool
  inputs : Option InterruptInputs
  mem : Memory
  cycles : Nat
  bus : List PortCall
deriving DecidableEq, Repr

/-- Why the machine stops: the one error there is (R230). -/
inductive Fault where
  /-- `UnknownOpcode(byte, address)`: raised by `step` alone, at decode, for one of the 105 bytes of R93. Safe: the spec
  names this error and stops the `run` call with it. -/
  | unknownOpcode (byte : Byte) (address : Word)
deriving DecidableEq, Repr

/-- Why the model gives no answer. -/
inductive Refusal where
  /-- An arm of `exec` that has no meaning yet: no arm raises it, every instruction is modelled. Safe. -/
  | notModelled (mnemonic : String)
deriving DecidableEq, Repr

/-- What an instruction answers. -/
abbrev Result := Host.Outcome State Fault Refusal

/-- The machine after `new` and then `reset()` on a memory with nothing listed (R29, R260, R261). The program counter is
the reset vector's word, whose two bytes read 0x00 (vector RS-5); `bus` holds the two reads of `reset()`. The values of
A, X and Y are the model's (log 1); the general form, for every power-up value and memory, is `State.new` with
`State.resetCall`. -/
def State.reset : State where
  a := Config.powerUpA
  x := Config.powerUpX
  y := Config.powerUpY
  sp := Config.spReset
  pc := 0x0000#16
  n := false
  v := false
  d := false
  i := true
  z := false
  c := false
  inputs := none
  mem := []
  cycles := 0
  bus := [.read 0xFFFC#16 Config.unlistedByte, .read 0xFFFD#16 Config.unlistedByte]

end Sys2Proof.Machine
end

