-- ==== Sys2Proof/Machine/Flags.lean ====
section
/-!
DEFINITION. The flag logic and the ALU: the status byte (10_state.md R17 to R20), add and subtract in binary and decimal
(43_logic_arith.md R150, R151, R156, R157, R160, R161), compare (R159), and the four shift functions
(44_inc_dec_shift.md R176 to R179).
-/

namespace Sys2Proof.Machine

/-! ### The status byte -/

/-- `SetNZ(v)` (R20). -/
def State.setNZ (v : Byte) (s : State) : State := { s with n := v.getLsbD 7, z := v == 0#8 }

/-- `P_byte(b)` (R18): the image of the flags with bit 5 set and bit 4 equal to `b`. -/
def State.pByte (b : Bool) (s : State) : Byte :=
  BitVec.ofNat 8 (s.n.toNat * 128 + s.v.toNat * 64 + 32 + b.toNat * 16 + s.d.toNat * 8 + s.i.toNat * 4 + s.z.toNat * 2 +
    s.c.toNat)

/-- `SetP(v)` (R19): bits 5 and 4 of `v` are ignored. -/
def State.setP (v : Byte) (s : State) : State :=
  { s with
    n := v.getLsbD 7, v := v.getLsbD 6, d := v.getLsbD 3, i := v.getLsbD 2, z := v.getLsbD 1, c := v.getLsbD 0 }

/-! ### Add and subtract -/

/-- What ADC and SBC write: the accumulator and the four flags. -/
structure AluResult where
  value : Byte
  n : Bool
  v : Bool
  z : Bool
  c : Bool
deriving DecidableEq, Repr

/-- `Overflow(a, m, r)` (R151). -/
def overflow (a m r : Byte) : Bool := ((a ^^^ r) &&& (m ^^^ r)).getLsbD 7

/-- `AddBinary(a, m, c)` (R150), with the N and Z that `SetNZ(r)` gives (R156). -/
def addBinary (a m : Byte) (c : Bool) : AluResult :=
  let sum := a.toNat + m.toNat + c.toNat
  let r := BitVec.ofNat 8 sum
  { value := r, n := r.getLsbD 7, v := overflow a m r, z := r == 0#8, c := decide (256 ≤ sum) }

/-- `x & 0x0F` of a byte, as a number. -/
def lowDigit (b : Byte) : Nat := b.toNat % 16

/-- `x & 0xF0` of a byte, as a number. -/
def highDigit (b : Byte) : Nat := b.toNat / 16 * 16

/-- The value `t` of `AddDecimal` before the high digit adjust (R160). -/
def addDecimalHalf (a m : Byte) (c : Bool) : Nat :=
  let al := lowDigit a + lowDigit m + c.toNat
  let al := if 0x0A ≤ al then (al + 0x06) % 16 + 0x10 else al
  highDigit a + highDigit m + al

/-- `AddDecimal(a, m, c)` (R160): Z is the binary sum's, N and V are taken before the high digit adjust. -/
def addDecimal (a m : Byte) (c : Bool) : AluResult :=
  let t := addDecimalHalf a m c
  let u := if 0xA0 ≤ t then t + 0x60 else t
  { value := BitVec.ofNat 8 u
    n := (BitVec.ofNat 8 t).getLsbD 7
    v := overflow a m (BitVec.ofNat 8 t)
    z := (addBinary a m c).z
    c := decide (0x100 ≤ u) }

/-- The binary subtraction (R157): addition of the complement. -/
def subBinary (a m : Byte) (c : Bool) : AluResult := addBinary a (~~~m) c

/-- The accumulator of `SubDecimal(a, m, c)` (R161), on signed integers. -/
def subDecimalValue (a m : Byte) (c : Bool) : Int :=
  let al : Int := (lowDigit a : Int) - lowDigit m + c.toNat - 1
  let al : Int := if al < 0 then (al - 0x06) % 16 - 0x10 else al
  let t : Int := (highDigit a : Int) - highDigit m + al
  if t < 0 then t - 0x60 else t

/-- `SubDecimal(a, m, c)` (R161): the flags are the binary subtraction's. -/
def subDecimal (a m : Byte) (c : Bool) : AluResult :=
  { subBinary a m c with value := BitVec.ofInt 8 (subDecimalValue a m c) }

/-- ADC and SBC write A, N, V, Z, C (R156, R157). -/
def State.setAlu (r : AluResult) (s : State) : State :=
  { s with a := r.value, n := r.n, v := r.v, z := r.z, c := r.c }

/-! ### Compare -/

/-- `Compare(r, m)` (R159): C, Z, N of the unsigned subtraction; nothing is stored. -/
def State.compare (r m : Byte) (s : State) : State :=
  { s with n := (r - m).getLsbD 7, z := r == m, c := decide (m.toNat ≤ r.toNat) }

/-! ### Shifts -/

/-- What a shift gives: the byte written back and the carry out. -/
structure ShiftResult where
  value : Byte
  carry : Bool
deriving DecidableEq, Repr

/-- ASL (R176): the carry before is not used. -/
def shiftLeft (m : Byte) (_ : Bool) : ShiftResult := ⟨m <<< 1, m.getLsbD 7⟩

/-- LSR (R177): the carry before is not used. -/
def shiftRight (m : Byte) (_ : Bool) : ShiftResult := ⟨m >>> 1, m.getLsbD 0⟩

/-- ROL (R178): the carry before enters bit 0. -/
def rotateLeft (m : Byte) (c : Bool) : ShiftResult := ⟨(m <<< 1) ||| (if c then 0x01#8 else 0#8), m.getLsbD 7⟩

/-- ROR (R179): the carry before enters bit 7. -/
def rotateRight (m : Byte) (c : Bool) : ShiftResult := ⟨(m >>> 1) ||| (if c then 0x80#8 else 0#8), m.getLsbD 0⟩

/-- The flags of a shift: C from the bit shifted out, N and Z from the result (R176 to R179). -/
def State.setShift (r : ShiftResult) (s : State) : State := { s.setNZ r.value with c := r.carry }

end Sys2Proof.Machine
end

