-- ==== Sys2Proof/Machine/Ops.lean ====
section
/-!
DEFINITION. The shared operations: the flat memory, the memory port (20_memory.md R40 to R45), the stack (10_state.md
R13), the cycle count (40_execution_engine.md R104), taking an interrupt and returning from one (60_exceptions.md R233 to
R241, 46_flags_system.md R218, R219).
-/

namespace Sys2Proof.Machine

/-! ### The flat memory -/

/-- The byte at an address: the first entry listed for it, else `Config.unlistedByte`. -/
def Memory.readNat : Memory → Nat → Byte
  | [], _ => Config.unlistedByte
  | (k, v) :: rest, n => if k = n then v else Memory.readNat rest n

/-- The byte at an address (R40). -/
def Memory.read (m : Memory) (address : Word) : Byte := Memory.readNat m address.toNat

/-- Drop every entry of one address. -/
def Memory.erase : Memory → Nat → Memory
  | [], _ => []
  | (k, v) :: rest, n => if k = n then Memory.erase rest n else (k, v) :: Memory.erase rest n

/-- Put an entry before the first entry of a larger address. -/
def Memory.insert : Memory → Nat → Byte → Memory
  | [], n, b => [(n, b)]
  | (k, v) :: rest, n, b => if n < k then (n, b) :: (k, v) :: rest else (k, v) :: Memory.insert rest n b

/-- Write a byte, keeping the canonical form: a byte that an unlisted address would read is not listed. -/
def Memory.writeNat (m : Memory) (n : Nat) (b : Byte) : Memory :=
  if b = Config.unlistedByte then Memory.erase m n else Memory.insert (Memory.erase m n) n b

/-- Write a byte (R40). -/
def Memory.write (m : Memory) (address : Word) (b : Byte) : Memory := Memory.writeNat m address.toNat b

/-- Every address of a list lies above `n` and below 65536, the addresses rise, and no entry is what an unlisted address
reads as. -/
def Memory.wfAbove : Memory → Nat → Bool
  | [], _ => true
  | (k, v) :: rest, n => decide (n ≤ k) && decide (k < 65536) && decide (v ≠ Config.unlistedByte) && Memory.wfAbove rest (k + 1)

/-- The canonical form: addresses strictly rising within the 65536 of R27, no entry equal to what an unlisted address
reads as. -/
def Memory.wf (m : Memory) : Bool := Memory.wfAbove m 0

/-! ### The memory port -/

/-- The byte `MemRead(address, 1)` returns (R40). -/
def State.memRead (s : State) (address : Word) : Byte := s.mem.read address

/-- Record port calls, in the order made (R45). -/
def State.record (calls : List PortCall) (s : State) : State := { s with bus := s.bus ++ calls }

/-- The port call of reading an address now. -/
def State.readCall (s : State) (address : Word) : PortCall := .read address (s.memRead address)

/-- Make the port call `MemRead(address, 1)`; its value is `s.memRead address` (R40). -/
def State.readPort (address : Word) (s : State) : State := s.record [s.readCall address]

/-- `MemWrite(address, 1, b)` (R40). -/
def State.memWrite (address : Word) (b : Byte) (s : State) : State :=
  { s with mem := s.mem.write address b, bus := s.bus ++ [.write address b] }

/-! ### Cycles -/

/-- Add to the cycle total (R100, R104). -/
def State.charge (k : Nat) (s : State) : State := { s with cycles := s.cycles + k }

/-! ### The stack (R13) -/

/-- `0x0100 + SP`: always within page 1. -/
def stackAddress (sp : Byte) : Word := 0x0100#16 + zext sp

/-- `Push(v)`: write, then decrement. -/
def State.push (v : Byte) (s : State) : State :=
  { s.memWrite (stackAddress s.sp) v with sp := s.sp - 1#8 }

/-- The byte `Pull()` returns: the one at the incremented stack pointer. -/
def State.pulled (s : State) : Byte := s.memRead (stackAddress (s.sp + 1#8))

/-- `Pull()`: increment, then read; its value is `s.pulled`. -/
def State.pull (s : State) : State :=
  { s.readPort (stackAddress (s.sp + 1#8)) with sp := s.sp + 1#8 }

/-- Push a 16-bit value, the high byte first (R42, R191, R233). -/
def State.pushWord (w : Word) (s : State) : State := (s.push (hiByte w)).push (loByte w)

/-- The 16-bit value pulled by two pulls, the low byte first (R192, R219). -/
def State.pulledWord (s : State) : Word := joinBytes s.pull.pulled s.pulled

/-- Two pulls. -/
def State.pullWord (s : State) : State := s.pull.pull

/-! ### Taking an interrupt and returning from one -/

/-- The vector of IRQ and BRK (R235). -/
def irqBrkVector : Word := 0xFFFE#16

/-- The vector of NMI (R235). -/
def nmiVector : Word := 0xFFFA#16

/-- The reset vector (R235, R261). -/
def resetVector : Word := 0xFFFC#16

/-- Load the program counter from a vector: the low byte is read first (R42 `Read16`, R233, R261). -/
def State.loadVector (vector : Word) (s : State) : State :=
  { s.record [s.readCall vector, s.readCall (vector + 1#16)] with
    pc := joinBytes (s.memRead (vector + 1#16)) (s.memRead vector) }

/-- `InterruptSequence(vector, b)` (R233): push the program counter and the status byte with bit 4 = `b`, then set I,
then load the vector. -/
def State.interruptSequence (vector : Word) (b : Bool) (s : State) : State :=
  let s1 := s.pushWord s.pc
  let s2 := s1.push (s1.pByte b)
  State.loadVector vector { s2 with i := true }

/-- BRK (R218): skip the padding byte, which is not read, and take the sequence with B = 1. -/
def State.breakSequence (s : State) : State :=
  State.interruptSequence irqBrkVector true { s with pc := s.pc + 1#16 }

/-- RTI (R219, R242): pull the status byte, then the return address; nothing is added to it. -/
def State.returnFromInterrupt (s : State) : State :=
  let s1 := s.pull.setP s.pulled
  { s1.pullWord with pc := s1.pulledWord }

/-- What an interrupt sequence adds to the cost of its step (R239, R241). -/
def interruptCycles : Nat := 7

/-- The latch of R238 at a step boundary: set by a rising edge of `nmi`. -/
def InterruptInputs.nmiDue (r : InterruptInputs) : Bool := r.nmiPending || (r.nmi && !r.nmiLast)

/-- The inputs after they have been examined at a step boundary: a pending NMI has been taken (R238, R239). -/
def InterruptInputs.examined (r : InterruptInputs) : InterruptInputs :=
  { r with nmiLast := r.nmi, nmiPending := false }

/-- `ServicePendingInterrupt()` (R239): nothing where the inputs are absent (R236); else a pending NMI, else an asserted
IRQ with I = 0, else nothing. -/
def State.serviceInterrupt (s : State) : State :=
  match s.inputs with
  | none => s
  | some r =>
    let s1 := { s with inputs := some r.examined }
    if r.nmiDue then (s1.interruptSequence nmiVector false).charge interruptCycles
    else if r.irq && !s.i then (s1.interruptSequence irqBrkVector false).charge interruptCycles
    else s1

end Sys2Proof.Machine
end

