-- ==== Sys2Proof/Machine/Operands.lean ====
section
/-!
DEFINITION. The addressing-mode resolver (30_encoding.md R66 to R82) and the shapes instructions have over it. The
operand bytes have been fetched with the instruction (`State.fetch`); here stands what `Resolve` computes from them: the
effective address, the page cross, and the pointer reads.
-/

namespace Sys2Proof.Machine

/-- The nine modes that resolve to an effective address (R70 to R72, R74 to R79), each with its operand bytes. -/
inductive AddrMode where
  | zp (z : Byte)      -- R70
  | zpX (z : Byte)     -- R71
  | zpY (z : Byte)     -- R72
  | abs (w : Word)     -- R74
  | absX (w : Word)    -- R75
  | absY (w : Word)    -- R76
  | ind (p : Word)     -- R77
  | indX (z : Byte)    -- R78
  | indY (z : Byte)    -- R79
deriving DecidableEq, Repr

/-- The second byte of JMP's pointer: the next address of the SAME page (R77, the page-wrap quirk). -/
def nextInPage (p : Word) : Word := joinBytes (hiByte p) (loByte p + 1#8)

/-- The word a zero-page pointer holds: both bytes in page 0 (R78, R79). -/
def State.zeroPagePointer (q : Byte) (s : State) : Word := joinBytes (s.memRead (zext (q + 1#8))) (s.memRead (zext q))

/-- The effective address (R70 to R79): zero-page sums wrap modulo 256, the others modulo 65536 (R41). -/
def AddrMode.ea : AddrMode → State → Word
  | .zp z, _ => zext z
  | .zpX z, s => zext (z + s.x)
  | .zpY z, s => zext (z + s.y)
  | .abs w, _ => w
  | .absX w, s => w + zext s.x
  | .absY w, s => w + zext s.y
  | .ind p, s => joinBytes (s.memRead (nextInPage p)) (s.memRead p)
  | .indX z, s => s.zeroPagePointer (z + s.x)
  | .indY z, s => s.zeroPagePointer z + zext s.y

/-- The page-cross flag (R80): only ABSX, ABSY and INDY can cross, and the un-indexed base is what is compared. -/
def AddrMode.crossed : AddrMode → State → Bool
  | .absX w, s => hiByte (w + zext s.x) != hiByte w
  | .absY w, s => hiByte (w + zext s.y) != hiByte w
  | .indY z, s => hiByte (s.zeroPagePointer z + zext s.y) != hiByte (s.zeroPagePointer z)
  | .zp _, _ | .zpX _, _ | .zpY _, _ | .abs _, _ | .ind _, _ | .indX _, _ => false

/-- The pointer reads of the indirect modes, the low byte first (R45 (3), R77 to R79). -/
def AddrMode.pointerReads : AddrMode → State → List PortCall
  | .ind p, s => [s.readCall p, s.readCall (nextInPage p)]
  | .indX z, s => [s.readCall (zext (z + s.x)), s.readCall (zext (z + s.x + 1#8))]
  | .indY z, s => [s.readCall (zext z), s.readCall (zext (z + 1#8))]
  | .zp _, _ | .zpX _, _ | .zpY _, _ | .abs _, _ | .absX _, _ | .absY _, _ => []

/-- The page-cross penalty of a form whose descriptor flag is `flag` (R105). -/
def AddrMode.penalty (m : AddrMode) (flag : Bool) (s : State) : Nat := if flag && m.crossed s then 1 else 0

/-- The state after `Resolve`: the pointer has been read (R66). -/
def AddrMode.resolve (m : AddrMode) (s : State) : State := s.record (m.pointerReads s)

/-! ### Shapes of instructions -/

/-- An instruction whose effect is `s` and whose cost is fixed. -/
def finish (cycles : Nat) (s : State) : Result := .next (s.charge cycles)

/-- An immediate form: the operand is the byte itself (R69, R81). -/
def readImm (cycles : Nat) (v : Byte) (effect : Byte → State → State) (s : State) : Result :=
  finish cycles (effect v s)

/-- A form that reads one byte of memory (R44, R81), with the penalty of R105 where its flag is set. -/
def readMem (cycles : Nat) (flag : Bool) (m : AddrMode) (effect : Byte → State → State) (s : State) : Result :=
  finish (cycles + m.penalty flag s) (effect (s.memRead (m.ea s)) ((m.resolve s).readPort (m.ea s)))

/-- A form that stores one byte (R44, R123 to R125): the old value is not read, and no penalty applies. -/
def writeMem (cycles : Nat) (m : AddrMode) (b : Byte) (s : State) : Result :=
  finish cycles ((m.resolve s).memWrite (m.ea s) b)

/-- The accesses of a read-modify-write form (R180): one read, then always one write, at the same address. -/
def modifyMem (m : AddrMode) (b : Byte) (s : State) : State := ((m.resolve s).readPort (m.ea s)).memWrite (m.ea s) b

/-- INC and DEC on memory (R170, R171). -/
def stepMem (cycles : Nat) (m : AddrMode) (f : Byte → Byte) (s : State) : Result :=
  finish cycles ((modifyMem m (f (s.memRead (m.ea s))) s).setNZ (f (s.memRead (m.ea s))))

/-- A shift of a byte of memory (R176 to R180). -/
def shiftMem (cycles : Nat) (m : AddrMode) (f : Byte → Bool → ShiftResult) (s : State) : Result :=
  finish cycles ((modifyMem m (f (s.memRead (m.ea s)) s.c).value s).setShift (f (s.memRead (m.ea s)) s.c))

/-- A shift of the accumulator (R68, R176 to R179): no data access. -/
def shiftAcc (cycles : Nat) (f : Byte → Bool → ShiftResult) (s : State) : Result :=
  finish cycles (State.setShift (f s.a s.c) { s with a := (f s.a s.c).value })

end Sys2Proof.Machine
end

