-- ==== Sys2Proof/Machine/ControlFlow.lean ====
section
/-!
DEFINITION. Jumps, call, return and the branches (45_control_flow.md R190 to R201). Each starts with the program counter
at the next sequential instruction.
-/

namespace Sys2Proof.Machine

/-- JMP (R190): the effective address becomes the program counter. -/
def jumpTo (cycles : Nat) (m : AddrMode) (s : State) : Result := finish cycles { m.resolve s with pc := m.ea s }

/-- JSR (R191): push the address of the instruction's last byte, then jump. -/
def State.callSubroutine (w : Word) (s : State) : State := { s.pushWord (s.pc - 1#16) with pc := w }

/-- RTS (R192): the pulled address plus 1. -/
def State.returnFromSubroutine (s : State) : State := { s.pullWord with pc := s.pulledWord + 1#16 }

/-- The target of a branch (R73, R193): relative to the next sequential instruction. -/
def branchTarget (next : Word) (o : Byte) : Word := next + sext o

/-- What a taken branch costs beyond its base (R106, R193): one cycle, and one more into another page. -/
def branchCycles (next : Word) (o : Byte) : Nat := if hiByte (branchTarget next o) != hiByte next then 2 else 1

/-- `Branch(cond)` (R193). -/
def branch (cycles : Nat) (cond : Bool) (o : Byte) (s : State) : Result :=
  if cond then finish (cycles + branchCycles s.pc o) { s with pc := branchTarget s.pc o } else finish cycles s

/-- JMP abs: R190, opcode 0x4C, 3 cycles. -/
def execJmpAbs (w : Word) (s : State) : Result := jumpTo 3 (.abs w) s

/-- JMP (abs): R190, opcode 0x6C, 5 cycles. -/
def execJmpInd (p : Word) (s : State) : Result := jumpTo 5 (.ind p) s

/-- JSR abs: R191, opcode 0x20, 6 cycles. -/
def execJsr (w : Word) (s : State) : Result := finish 6 (s.callSubroutine w)

/-- RTS: R192, opcode 0x60, 6 cycles. -/
def execRts (s : State) : Result := finish 6 s.returnFromSubroutine

/-- BPL rel: R194, opcode 0x10, 2 cycles, 3 taken, 4 taken to another page. -/
def execBpl (o : Byte) (s : State) : Result := branch 2 (!s.n) o s

/-- BMI rel: R195, opcode 0x30, 2 cycles, 3 taken, 4 taken to another page. -/
def execBmi (o : Byte) (s : State) : Result := branch 2 (s.n) o s

/-- BVC rel: R196, opcode 0x50, 2 cycles, 3 taken, 4 taken to another page. -/
def execBvc (o : Byte) (s : State) : Result := branch 2 (!s.v) o s

/-- BVS rel: R197, opcode 0x70, 2 cycles, 3 taken, 4 taken to another page. -/
def execBvs (o : Byte) (s : State) : Result := branch 2 (s.v) o s

/-- BCC rel: R198, opcode 0x90, 2 cycles, 3 taken, 4 taken to another page. -/
def execBcc (o : Byte) (s : State) : Result := branch 2 (!s.c) o s

/-- BCS rel: R199, opcode 0xB0, 2 cycles, 3 taken, 4 taken to another page. -/
def execBcs (o : Byte) (s : State) : Result := branch 2 (s.c) o s

/-- BNE rel: R200, opcode 0xD0, 2 cycles, 3 taken, 4 taken to another page. -/
def execBne (o : Byte) (s : State) : Result := branch 2 (!s.z) o s

/-- BEQ rel: R201, opcode 0xF0, 2 cycles, 3 taken, 4 taken to another page. -/
def execBeq (o : Byte) (s : State) : Result := branch 2 (s.z) o s

end Sys2Proof.Machine
end

