-- ==== Sys2Proof/Machine/FlagsSystem.lean ====
section
/-!
DEFINITION. Flag and system instructions (46_flags_system.md R210 to R219).
-/

namespace Sys2Proof.Machine

/-- CLC: R210, opcode 0x18, 2 cycles. -/
def execClc (s : State) : Result := finish 2 ({ s with c := false })

/-- SEC: R211, opcode 0x38, 2 cycles. -/
def execSec (s : State) : Result := finish 2 ({ s with c := true })

/-- CLI: R212, opcode 0x58, 2 cycles. -/
def execCli (s : State) : Result := finish 2 ({ s with i := false })

/-- SEI: R213, opcode 0x78, 2 cycles. -/
def execSei (s : State) : Result := finish 2 ({ s with i := true })

/-- CLD: R214, opcode 0xD8, 2 cycles. -/
def execCld (s : State) : Result := finish 2 ({ s with d := false })

/-- SED: R215, opcode 0xF8, 2 cycles. -/
def execSed (s : State) : Result := finish 2 ({ s with d := true })

/-- CLV: R216, opcode 0xB8, 2 cycles. -/
def execClv (s : State) : Result := finish 2 ({ s with v := false })

/-- NOP: R217, opcode 0xEA, 2 cycles. -/
def execNop (s : State) : Result := finish 2 s

/-- BRK: R218, opcode 0x00, 7 cycles. -/
def execBrk (s : State) : Result := finish 7 s.breakSequence

/-- RTI: R219, opcode 0x40, 6 cycles. -/
def execRti (s : State) : Result := finish 6 s.returnFromInterrupt

end Sys2Proof.Machine
end

