-- ==== Sys2Proof/Machine/LoadStore.lean ====
section
/-!
DEFINITION. Loads and stores (41_load_store.md R120 to R125).
-/

namespace Sys2Proof.Machine

/-- `A <- v; SetNZ(A)` (R120). -/
def State.loadA (v : Byte) (s : State) : State := State.setNZ v { s with a := v }

/-- `X <- v; SetNZ(X)` (R121). -/
def State.loadX (v : Byte) (s : State) : State := State.setNZ v { s with x := v }

/-- `Y <- v; SetNZ(Y)` (R122). -/
def State.loadY (v : Byte) (s : State) : State := State.setNZ v { s with y := v }

/-- LDA #v: R120, opcode 0xA9, 2 cycles. -/
def execLdaImm (v : Byte) (s : State) : Result := readImm 2 v State.loadA s

/-- LDA zp: R120, opcode 0xA5, 3 cycles. -/
def execLdaZp (z : Byte) (s : State) : Result := readMem 3 false (.zp z) State.loadA s

/-- LDA zp,X: R120, opcode 0xB5, 4 cycles. -/
def execLdaZpX (z : Byte) (s : State) : Result := readMem 4 false (.zpX z) State.loadA s

/-- LDA abs: R120, opcode 0xAD, 4 cycles. -/
def execLdaAbs (w : Word) (s : State) : Result := readMem 4 false (.abs w) State.loadA s

/-- LDA abs,X: R120, opcode 0xBD, 4 cycles, one more on a page cross. -/
def execLdaAbsX (w : Word) (s : State) : Result := readMem 4 true (.absX w) State.loadA s

/-- LDA abs,Y: R120, opcode 0xB9, 4 cycles, one more on a page cross. -/
def execLdaAbsY (w : Word) (s : State) : Result := readMem 4 true (.absY w) State.loadA s

/-- LDA (zp,X): R120, opcode 0xA1, 6 cycles. -/
def execLdaIndX (z : Byte) (s : State) : Result := readMem 6 false (.indX z) State.loadA s

/-- LDA (zp),Y: R120, opcode 0xB1, 5 cycles, one more on a page cross. -/
def execLdaIndY (z : Byte) (s : State) : Result := readMem 5 true (.indY z) State.loadA s

/-- LDX #v: R121, opcode 0xA2, 2 cycles. -/
def execLdxImm (v : Byte) (s : State) : Result := readImm 2 v State.loadX s

/-- LDX zp: R121, opcode 0xA6, 3 cycles. -/
def execLdxZp (z : Byte) (s : State) : Result := readMem 3 false (.zp z) State.loadX s

/-- LDX zp,Y: R121, opcode 0xB6, 4 cycles. -/
def execLdxZpY (z : Byte) (s : State) : Result := readMem 4 false (.zpY z) State.loadX s

/-- LDX abs: R121, opcode 0xAE, 4 cycles. -/
def execLdxAbs (w : Word) (s : State) : Result := readMem 4 false (.abs w) State.loadX s

/-- LDX abs,Y: R121, opcode 0xBE, 4 cycles, one more on a page cross. -/
def execLdxAbsY (w : Word) (s : State) : Result := readMem 4 true (.absY w) State.loadX s

/-- LDY #v: R122, opcode 0xA0, 2 cycles. -/
def execLdyImm (v : Byte) (s : State) : Result := readImm 2 v State.loadY s

/-- LDY zp: R122, opcode 0xA4, 3 cycles. -/
def execLdyZp (z : Byte) (s : State) : Result := readMem 3 false (.zp z) State.loadY s

/-- LDY zp,X: R122, opcode 0xB4, 4 cycles. -/
def execLdyZpX (z : Byte) (s : State) : Result := readMem 4 false (.zpX z) State.loadY s

/-- LDY abs: R122, opcode 0xAC, 4 cycles. -/
def execLdyAbs (w : Word) (s : State) : Result := readMem 4 false (.abs w) State.loadY s

/-- LDY abs,X: R122, opcode 0xBC, 4 cycles, one more on a page cross. -/
def execLdyAbsX (w : Word) (s : State) : Result := readMem 4 true (.absX w) State.loadY s

/-- STA zp: R123, opcode 0x85, 3 cycles. -/
def execStaZp (z : Byte) (s : State) : Result := writeMem 3 (.zp z) s.a s

/-- STA zp,X: R123, opcode 0x95, 4 cycles. -/
def execStaZpX (z : Byte) (s : State) : Result := writeMem 4 (.zpX z) s.a s

/-- STA abs: R123, opcode 0x8D, 4 cycles. -/
def execStaAbs (w : Word) (s : State) : Result := writeMem 4 (.abs w) s.a s

/-- STA abs,X: R123, opcode 0x9D, 5 cycles. -/
def execStaAbsX (w : Word) (s : State) : Result := writeMem 5 (.absX w) s.a s

/-- STA abs,Y: R123, opcode 0x99, 5 cycles. -/
def execStaAbsY (w : Word) (s : State) : Result := writeMem 5 (.absY w) s.a s

/-- STA (zp,X): R123, opcode 0x81, 6 cycles. -/
def execStaIndX (z : Byte) (s : State) : Result := writeMem 6 (.indX z) s.a s

/-- STA (zp),Y: R123, opcode 0x91, 6 cycles. -/
def execStaIndY (z : Byte) (s : State) : Result := writeMem 6 (.indY z) s.a s

/-- STX zp: R124, opcode 0x86, 3 cycles. -/
def execStxZp (z : Byte) (s : State) : Result := writeMem 3 (.zp z) s.x s

/-- STX zp,Y: R124, opcode 0x96, 4 cycles. -/
def execStxZpY (z : Byte) (s : State) : Result := writeMem 4 (.zpY z) s.x s

/-- STX abs: R124, opcode 0x8E, 4 cycles. -/
def execStxAbs (w : Word) (s : State) : Result := writeMem 4 (.abs w) s.x s

/-- STY zp: R125, opcode 0x84, 3 cycles. -/
def execStyZp (z : Byte) (s : State) : Result := writeMem 3 (.zp z) s.y s

/-- STY zp,X: R125, opcode 0x94, 4 cycles. -/
def execStyZpX (z : Byte) (s : State) : Result := writeMem 4 (.zpX z) s.y s

/-- STY abs: R125, opcode 0x8C, 4 cycles. -/
def execStyAbs (w : Word) (s : State) : Result := writeMem 4 (.abs w) s.y s

end Sys2Proof.Machine
end

