-- ==== Sys2Proof/Machine/IncDecShift.lean ====
section
/-!
DEFINITION. Increments, decrements, shifts and rotates (44_inc_dec_shift.md R170 to R180).
-/

namespace Sys2Proof.Machine

/-- INC zp: R170, opcode 0xE6, 5 cycles. -/
def execIncZp (z : Byte) (s : State) : Result := stepMem 5 (.zp z) (· + 1#8) s

/-- INC zp,X: R170, opcode 0xF6, 6 cycles. -/
def execIncZpX (z : Byte) (s : State) : Result := stepMem 6 (.zpX z) (· + 1#8) s

/-- INC abs: R170, opcode 0xEE, 6 cycles. -/
def execIncAbs (w : Word) (s : State) : Result := stepMem 6 (.abs w) (· + 1#8) s

/-- INC abs,X: R170, opcode 0xFE, 7 cycles. -/
def execIncAbsX (w : Word) (s : State) : Result := stepMem 7 (.absX w) (· + 1#8) s

/-- DEC zp: R171, opcode 0xC6, 5 cycles. -/
def execDecZp (z : Byte) (s : State) : Result := stepMem 5 (.zp z) (· - 1#8) s

/-- DEC zp,X: R171, opcode 0xD6, 6 cycles. -/
def execDecZpX (z : Byte) (s : State) : Result := stepMem 6 (.zpX z) (· - 1#8) s

/-- DEC abs: R171, opcode 0xCE, 6 cycles. -/
def execDecAbs (w : Word) (s : State) : Result := stepMem 6 (.abs w) (· - 1#8) s

/-- DEC abs,X: R171, opcode 0xDE, 7 cycles. -/
def execDecAbsX (w : Word) (s : State) : Result := stepMem 7 (.absX w) (· - 1#8) s

/-- INX: R172, opcode 0xE8, 2 cycles. -/
def execInx (s : State) : Result := finish 2 (s.loadX (s.x + 1#8))

/-- INY: R173, opcode 0xC8, 2 cycles. -/
def execIny (s : State) : Result := finish 2 (s.loadY (s.y + 1#8))

/-- DEX: R174, opcode 0xCA, 2 cycles. -/
def execDex (s : State) : Result := finish 2 (s.loadX (s.x - 1#8))

/-- DEY: R175, opcode 0x88, 2 cycles. -/
def execDey (s : State) : Result := finish 2 (s.loadY (s.y - 1#8))

/-- ASL zp: R176, opcode 0x06, 5 cycles. -/
def execAslZp (z : Byte) (s : State) : Result := shiftMem 5 (.zp z) shiftLeft s

/-- ASL zp,X: R176, opcode 0x16, 6 cycles. -/
def execAslZpX (z : Byte) (s : State) : Result := shiftMem 6 (.zpX z) shiftLeft s

/-- ASL abs: R176, opcode 0x0E, 6 cycles. -/
def execAslAbs (w : Word) (s : State) : Result := shiftMem 6 (.abs w) shiftLeft s

/-- ASL abs,X: R176, opcode 0x1E, 7 cycles. -/
def execAslAbsX (w : Word) (s : State) : Result := shiftMem 7 (.absX w) shiftLeft s

/-- ASL A: R176, opcode 0x0A, 2 cycles. -/
def execAslAcc (s : State) : Result := shiftAcc 2 shiftLeft s

/-- LSR zp: R177, opcode 0x46, 5 cycles. -/
def execLsrZp (z : Byte) (s : State) : Result := shiftMem 5 (.zp z) shiftRight s

/-- LSR zp,X: R177, opcode 0x56, 6 cycles. -/
def execLsrZpX (z : Byte) (s : State) : Result := shiftMem 6 (.zpX z) shiftRight s

/-- LSR abs: R177, opcode 0x4E, 6 cycles. -/
def execLsrAbs (w : Word) (s : State) : Result := shiftMem 6 (.abs w) shiftRight s

/-- LSR abs,X: R177, opcode 0x5E, 7 cycles. -/
def execLsrAbsX (w : Word) (s : State) : Result := shiftMem 7 (.absX w) shiftRight s

/-- LSR A: R177, opcode 0x4A, 2 cycles. -/
def execLsrAcc (s : State) : Result := shiftAcc 2 shiftRight s

/-- ROL zp: R178, opcode 0x26, 5 cycles. -/
def execRolZp (z : Byte) (s : State) : Result := shiftMem 5 (.zp z) rotateLeft s

/-- ROL zp,X: R178, opcode 0x36, 6 cycles. -/
def execRolZpX (z : Byte) (s : State) : Result := shiftMem 6 (.zpX z) rotateLeft s

/-- ROL abs: R178, opcode 0x2E, 6 cycles. -/
def execRolAbs (w : Word) (s : State) : Result := shiftMem 6 (.abs w) rotateLeft s

/-- ROL abs,X: R178, opcode 0x3E, 7 cycles. -/
def execRolAbsX (w : Word) (s : State) : Result := shiftMem 7 (.absX w) rotateLeft s

/-- ROL A: R178, opcode 0x2A, 2 cycles. -/
def execRolAcc (s : State) : Result := shiftAcc 2 rotateLeft s

/-- ROR zp: R179, opcode 0x66, 5 cycles. -/
def execRorZp (z : Byte) (s : State) : Result := shiftMem 5 (.zp z) rotateRight s

/-- ROR zp,X: R179, opcode 0x76, 6 cycles. -/
def execRorZpX (z : Byte) (s : State) : Result := shiftMem 6 (.zpX z) rotateRight s

/-- ROR abs: R179, opcode 0x6E, 6 cycles. -/
def execRorAbs (w : Word) (s : State) : Result := shiftMem 6 (.abs w) rotateRight s

/-- ROR abs,X: R179, opcode 0x7E, 7 cycles. -/
def execRorAbsX (w : Word) (s : State) : Result := shiftMem 7 (.absX w) rotateRight s

/-- ROR A: R179, opcode 0x6A, 2 cycles. -/
def execRorAcc (s : State) : Result := shiftAcc 2 rotateRight s

end Sys2Proof.Machine
end

