-- ==== Sys2Proof/Machine/LogicArith.lean ====
section
/-!
DEFINITION. Logical, arithmetic and compare instructions (43_logic_arith.md R152 to R163). The ALU stands in Flags.lean.
-/

namespace Sys2Proof.Machine

/-- AND (R152). -/
def State.andA (m : Byte) (s : State) : State := s.loadA (s.a &&& m)

/-- ORA (R153). -/
def State.oraA (m : Byte) (s : State) : State := s.loadA (s.a ||| m)

/-- EOR (R154). -/
def State.eorA (m : Byte) (s : State) : State := s.loadA (s.a ^^^ m)

/-- BIT (R155): N and V are the operand's own bits 7 and 6, Z is the AND's. -/
def State.bitTest (m : Byte) (s : State) : State :=
  { s with n := m.getLsbD 7, v := m.getLsbD 6, z := (s.a &&& m) == 0#8 }

/-- ADC (R156): D selects decimal. -/
def State.adc (m : Byte) (s : State) : State :=
  s.setAlu (if s.d then addDecimal s.a m s.c else addBinary s.a m s.c)

/-- SBC (R157): D selects decimal. -/
def State.sbc (m : Byte) (s : State) : State :=
  s.setAlu (if s.d then subDecimal s.a m s.c else subBinary s.a m s.c)

/-- CMP (R158). -/
def State.cmpA (m : Byte) (s : State) : State := s.compare s.a m

/-- CPX (R162). -/
def State.cmpX (m : Byte) (s : State) : State := s.compare s.x m

/-- CPY (R163). -/
def State.cmpY (m : Byte) (s : State) : State := s.compare s.y m

/-- AND #v: R152, opcode 0x29, 2 cycles. -/
def execAndImm (v : Byte) (s : State) : Result := readImm 2 v State.andA s

/-- AND zp: R152, opcode 0x25, 3 cycles. -/
def execAndZp (z : Byte) (s : State) : Result := readMem 3 false (.zp z) State.andA s

/-- AND zp,X: R152, opcode 0x35, 4 cycles. -/
def execAndZpX (z : Byte) (s : State) : Result := readMem 4 false (.zpX z) State.andA s

/-- AND abs: R152, opcode 0x2D, 4 cycles. -/
def execAndAbs (w : Word) (s : State) : Result := readMem 4 false (.abs w) State.andA s

/-- AND abs,X: R152, opcode 0x3D, 4 cycles, one more on a page cross. -/
def execAndAbsX (w : Word) (s : State) : Result := readMem 4 true (.absX w) State.andA s

/-- AND abs,Y: R152, opcode 0x39, 4 cycles, one more on a page cross. -/
def execAndAbsY (w : Word) (s : State) : Result := readMem 4 true (.absY w) State.andA s

/-- AND (zp,X): R152, opcode 0x21, 6 cycles. -/
def execAndIndX (z : Byte) (s : State) : Result := readMem 6 false (.indX z) State.andA s

/-- AND (zp),Y: R152, opcode 0x31, 5 cycles, one more on a page cross. -/
def execAndIndY (z : Byte) (s : State) : Result := readMem 5 true (.indY z) State.andA s

/-- ORA #v: R153, opcode 0x09, 2 cycles. -/
def execOraImm (v : Byte) (s : State) : Result := readImm 2 v State.oraA s

/-- ORA zp: R153, opcode 0x05, 3 cycles. -/
def execOraZp (z : Byte) (s : State) : Result := readMem 3 false (.zp z) State.oraA s

/-- ORA zp,X: R153, opcode 0x15, 4 cycles. -/
def execOraZpX (z : Byte) (s : State) : Result := readMem 4 false (.zpX z) State.oraA s

/-- ORA abs: R153, opcode 0x0D, 4 cycles. -/
def execOraAbs (w : Word) (s : State) : Result := readMem 4 false (.abs w) State.oraA s

/-- ORA abs,X: R153, opcode 0x1D, 4 cycles, one more on a page cross. -/
def execOraAbsX (w : Word) (s : State) : Result := readMem 4 true (.absX w) State.oraA s

/-- ORA abs,Y: R153, opcode 0x19, 4 cycles, one more on a page cross. -/
def execOraAbsY (w : Word) (s : State) : Result := readMem 4 true (.absY w) State.oraA s

/-- ORA (zp,X): R153, opcode 0x01, 6 cycles. -/
def execOraIndX (z : Byte) (s : State) : Result := readMem 6 false (.indX z) State.oraA s

/-- ORA (zp),Y: R153, opcode 0x11, 5 cycles, one more on a page cross. -/
def execOraIndY (z : Byte) (s : State) : Result := readMem 5 true (.indY z) State.oraA s

/-- EOR #v: R154, opcode 0x49, 2 cycles. -/
def execEorImm (v : Byte) (s : State) : Result := readImm 2 v State.eorA s

/-- EOR zp: R154, opcode 0x45, 3 cycles. -/
def execEorZp (z : Byte) (s : State) : Result := readMem 3 false (.zp z) State.eorA s

/-- EOR zp,X: R154, opcode 0x55, 4 cycles. -/
def execEorZpX (z : Byte) (s : State) : Result := readMem 4 false (.zpX z) State.eorA s

/-- EOR abs: R154, opcode 0x4D, 4 cycles. -/
def execEorAbs (w : Word) (s : State) : Result := readMem 4 false (.abs w) State.eorA s

/-- EOR abs,X: R154, opcode 0x5D, 4 cycles, one more on a page cross. -/
def execEorAbsX (w : Word) (s : State) : Result := readMem 4 true (.absX w) State.eorA s

/-- EOR abs,Y: R154, opcode 0x59, 4 cycles, one more on a page cross. -/
def execEorAbsY (w : Word) (s : State) : Result := readMem 4 true (.absY w) State.eorA s

/-- EOR (zp,X): R154, opcode 0x41, 6 cycles. -/
def execEorIndX (z : Byte) (s : State) : Result := readMem 6 false (.indX z) State.eorA s

/-- EOR (zp),Y: R154, opcode 0x51, 5 cycles, one more on a page cross. -/
def execEorIndY (z : Byte) (s : State) : Result := readMem 5 true (.indY z) State.eorA s

/-- BIT zp: R155, opcode 0x24, 3 cycles. -/
def execBitZp (z : Byte) (s : State) : Result := readMem 3 false (.zp z) State.bitTest s

/-- BIT abs: R155, opcode 0x2C, 4 cycles. -/
def execBitAbs (w : Word) (s : State) : Result := readMem 4 false (.abs w) State.bitTest s

/-- ADC #v: R156, opcode 0x69, 2 cycles. -/
def execAdcImm (v : Byte) (s : State) : Result := readImm 2 v State.adc s

/-- ADC zp: R156, opcode 0x65, 3 cycles. -/
def execAdcZp (z : Byte) (s : State) : Result := readMem 3 false (.zp z) State.adc s

/-- ADC zp,X: R156, opcode 0x75, 4 cycles. -/
def execAdcZpX (z : Byte) (s : State) : Result := readMem 4 false (.zpX z) State.adc s

/-- ADC abs: R156, opcode 0x6D, 4 cycles. -/
def execAdcAbs (w : Word) (s : State) : Result := readMem 4 false (.abs w) State.adc s

/-- ADC abs,X: R156, opcode 0x7D, 4 cycles, one more on a page cross. -/
def execAdcAbsX (w : Word) (s : State) : Result := readMem 4 true (.absX w) State.adc s

/-- ADC abs,Y: R156, opcode 0x79, 4 cycles, one more on a page cross. -/
def execAdcAbsY (w : Word) (s : State) : Result := readMem 4 true (.absY w) State.adc s

/-- ADC (zp,X): R156, opcode 0x61, 6 cycles. -/
def execAdcIndX (z : Byte) (s : State) : Result := readMem 6 false (.indX z) State.adc s

/-- ADC (zp),Y: R156, opcode 0x71, 5 cycles, one more on a page cross. -/
def execAdcIndY (z : Byte) (s : State) : Result := readMem 5 true (.indY z) State.adc s

/-- SBC #v: R157, opcode 0xE9, 2 cycles. -/
def execSbcImm (v : Byte) (s : State) : Result := readImm 2 v State.sbc s

/-- SBC zp: R157, opcode 0xE5, 3 cycles. -/
def execSbcZp (z : Byte) (s : State) : Result := readMem 3 false (.zp z) State.sbc s

/-- SBC zp,X: R157, opcode 0xF5, 4 cycles. -/
def execSbcZpX (z : Byte) (s : State) : Result := readMem 4 false (.zpX z) State.sbc s

/-- SBC abs: R157, opcode 0xED, 4 cycles. -/
def execSbcAbs (w : Word) (s : State) : Result := readMem 4 false (.abs w) State.sbc s

/-- SBC abs,X: R157, opcode 0xFD, 4 cycles, one more on a page cross. -/
def execSbcAbsX (w : Word) (s : State) : Result := readMem 4 true (.absX w) State.sbc s

/-- SBC abs,Y: R157, opcode 0xF9, 4 cycles, one more on a page cross. -/
def execSbcAbsY (w : Word) (s : State) : Result := readMem 4 true (.absY w) State.sbc s

/-- SBC (zp,X): R157, opcode 0xE1, 6 cycles. -/
def execSbcIndX (z : Byte) (s : State) : Result := readMem 6 false (.indX z) State.sbc s

/-- SBC (zp),Y: R157, opcode 0xF1, 5 cycles, one more on a page cross. -/
def execSbcIndY (z : Byte) (s : State) : Result := readMem 5 true (.indY z) State.sbc s

/-- CMP #v: R158, opcode 0xC9, 2 cycles. -/
def execCmpImm (v : Byte) (s : State) : Result := readImm 2 v State.cmpA s

/-- CMP zp: R158, opcode 0xC5, 3 cycles. -/
def execCmpZp (z : Byte) (s : State) : Result := readMem 3 false (.zp z) State.cmpA s

/-- CMP zp,X: R158, opcode 0xD5, 4 cycles. -/
def execCmpZpX (z : Byte) (s : State) : Result := readMem 4 false (.zpX z) State.cmpA s

/-- CMP abs: R158, opcode 0xCD, 4 cycles. -/
def execCmpAbs (w : Word) (s : State) : Result := readMem 4 false (.abs w) State.cmpA s

/-- CMP abs,X: R158, opcode 0xDD, 4 cycles, one more on a page cross. -/
def execCmpAbsX (w : Word) (s : State) : Result := readMem 4 true (.absX w) State.cmpA s

/-- CMP abs,Y: R158, opcode 0xD9, 4 cycles, one more on a page cross. -/
def execCmpAbsY (w : Word) (s : State) : Result := readMem 4 true (.absY w) State.cmpA s

/-- CMP (zp,X): R158, opcode 0xC1, 6 cycles. -/
def execCmpIndX (z : Byte) (s : State) : Result := readMem 6 false (.indX z) State.cmpA s

/-- CMP (zp),Y: R158, opcode 0xD1, 5 cycles, one more on a page cross. -/
def execCmpIndY (z : Byte) (s : State) : Result := readMem 5 true (.indY z) State.cmpA s

/-- CPX #v: R162, opcode 0xE0, 2 cycles. -/
def execCpxImm (v : Byte) (s : State) : Result := readImm 2 v State.cmpX s

/-- CPX zp: R162, opcode 0xE4, 3 cycles. -/
def execCpxZp (z : Byte) (s : State) : Result := readMem 3 false (.zp z) State.cmpX s

/-- CPX abs: R162, opcode 0xEC, 4 cycles. -/
def execCpxAbs (w : Word) (s : State) : Result := readMem 4 false (.abs w) State.cmpX s

/-- CPY #v: R163, opcode 0xC0, 2 cycles. -/
def execCpyImm (v : Byte) (s : State) : Result := readImm 2 v State.cmpY s

/-- CPY zp: R163, opcode 0xC4, 3 cycles. -/
def execCpyZp (z : Byte) (s : State) : Result := readMem 3 false (.zp z) State.cmpY s

/-- CPY abs: R163, opcode 0xCC, 4 cycles. -/
def execCpyAbs (w : Word) (s : State) : Result := readMem 4 false (.abs w) State.cmpY s

end Sys2Proof.Machine
end

