-- ==== Sys2Proof/Machine/TransferStack.lean ====
section
/-!
DEFINITION. Register transfers, pushes and pulls (42_transfer_stack.md R130 to R139). TXS alone writes no flag.
-/

namespace Sys2Proof.Machine

/-- TAX: R130, opcode 0xAA, 2 cycles. -/
def execTax (s : State) : Result := finish 2 (s.loadX s.a)

/-- TAY: R131, opcode 0xA8, 2 cycles. -/
def execTay (s : State) : Result := finish 2 (s.loadY s.a)

/-- TXA: R132, opcode 0x8A, 2 cycles. -/
def execTxa (s : State) : Result := finish 2 (s.loadA s.x)

/-- TYA: R133, opcode 0x98, 2 cycles. -/
def execTya (s : State) : Result := finish 2 (s.loadA s.y)

/-- TSX: R134, opcode 0xBA, 2 cycles. -/
def execTsx (s : State) : Result := finish 2 (s.loadX s.sp)

/-- TXS: R135, opcode 0x9A, 2 cycles. -/
def execTxs (s : State) : Result := finish 2 ({ s with sp := s.x })

/-- PHA: R136, opcode 0x48, 3 cycles. -/
def execPha (s : State) : Result := finish 3 (s.push s.a)

/-- PHP: R137, opcode 0x08, 3 cycles. -/
def execPhp (s : State) : Result := finish 3 (s.push (s.pByte true))

/-- PLA: R138, opcode 0x68, 4 cycles. -/
def execPla (s : State) : Result := finish 4 (s.pull.loadA s.pulled)

/-- PLP: R139, opcode 0x28, 4 cycles. -/
def execPlp (s : State) : Result := finish 4 (s.pull.setP s.pulled)

end Sys2Proof.Machine
end

