-- ==== Sys2Proof/Machine/Fetch.lean ====
section
/-!
DEFINITION. Fetching an instruction (30_encoding.md R64, R65; 40_execution_engine.md R101) and what an unknown opcode
leaves (60_exceptions.md R231).
-/

namespace Sys2Proof.Machine

/-- `Fetch8()` (R65): one port read at the program counter, which then advances modulo 65536. -/
def State.fetch8 (s : State) : State := { s.readPort s.pc with pc := s.pc + 1#16 }

/-- `k` times `Fetch8()`. -/
def State.fetchBytes : Nat → State → State
  | 0, s => s
  | k + 1, s => State.fetchBytes k s.fetch8

/-- What the fetch and the decoder give: an unknown opcode with its address (R230), or an instruction with the state
after its bytes have been fetched. -/
inductive Fetched where
  | unknown (byte : Byte) (address : Word)
  | instr (i : Instr) (s : State)
deriving DecidableEq, Repr

/-- Fetch and decode at the program counter. The decoder is shown three bytes, the longest instruction; only the
instruction's own bytes are read through the port (R45 (1), (2)). -/
def State.fetch (s : State) : Fetched :=
  match decode [s.memRead s.pc, s.memRead (s.pc + 1#16), s.memRead (s.pc + 2#16)] with
  | .ok (i, _) => .instr i (s.fetchBytes i.length)
  | .error _ => .unknown (s.memRead s.pc) s.pc

/-- The state an `UnknownOpcode` error leaves (R231, R241): an interrupt sequence that preceded the fetch keeps its
effect; of the failing instruction only the opcode fetch has happened. -/
def State.afterUnknownOpcode (s : State) : State := s.serviceInterrupt.fetch8

/-- The inputs with every request withdrawn, so that the next step boundary services none. -/
def InterruptInputs.withdrawn (r : InterruptInputs) : InterruptInputs :=
  { r with irq := false, nmiLast := r.nmi, nmiPending := false }

/-- Place three bytes at the program counter, with no interrupt due, so that the next step fetches them. -/
def State.placeBytes (b0 b1 b2 : Byte) (s : State) : State :=
  { s with
    inputs := s.inputs.map InterruptInputs.withdrawn
    mem := ((s.mem.write s.pc b0).write (s.pc + 1#16) b1).write (s.pc + 2#16) b2 }

end Sys2Proof.Machine
end

