-- ==== Sys2Proof/Machine/Step.lean ====
section
/-!
DEFINITION. `Step()` (40_execution_engine.md R101): service a pending interrupt, fetch and decode, execute.
-/

namespace Sys2Proof.Machine

/-- The execution of one instruction (R101), or the `UnknownOpcode` error (R230). -/
def step (s : State) : Host.Outcome State Fault Refusal :=
  match s.serviceInterrupt.fetch with
  | .unknown byte address => .fault (.unknownOpcode byte address)
  | .instr i t => exec i t

/-- `s` with a table row's instruction, its other bytes 0, stored where the next step fetches. -/
def State.withFetchWord (s : State) (nbits w : Nat) : State :=
  s.placeBytes (tableByte nbits w 0) (tableByte nbits w 1) (tableByte nbits w 2)

end Sys2Proof.Machine
end

