-- ==== Sys2Proof/Machine/Run.lean ====
section
/-!
DEFINITION. The host's three operations and what it may do between them: `new` and `reset()` (70_reset_and_hazards.md
R260 to R263), the request inputs of each step (60_exceptions.md R236), `run(n)` (40_execution_engine.md R100, R107), the
introspection port (R109) and memory between calls (20_memory.md R53).
-/

namespace Sys2Proof.Machine

/-! ### `new` and `reset()` -/

/-- `new(memory)` (R260, R29). The unspecified registers `POWERUP_A`, `POWERUP_X`, `POWERUP_Y` and `POWERUP_PC`, the
host's memory (`MEM_INIT`) and `IRQ_NMI_INPUTS` are arguments. No memory access is made. -/
def State.new (a x y : Byte) (pc : Word) (inputsPresent : Bool) (mem : Memory) : State where
  a := a
  x := x
  y := y
  sp := Config.spReset
  pc := pc
  n := false
  v := false
  d := false
  i := true
  z := false
  c := false
  inputs := if inputsPresent then some ⟨false, false, false, false⟩ else none
  mem := mem
  cycles := 0
  bus := []

/-- `reset()` (R261, R262): set I, set SP, load the reset vector, clear the NMI latch; nothing else, and no cycles
(R263). -/
def State.resetCall (s : State) : State :=
  State.loadVector resetVector
    { s with i := true, sp := 0xFD#8, inputs := s.inputs.map (fun r => { r with nmiPending := false }) }

/-! ### The request inputs (R236) -/

/-- The values of the two request inputs that the host presents for one step (R236). -/
structure RequestLevels where
  irq : Bool
  nmi : Bool
deriving DecidableEq, Repr

/-- The host presents the levels of `irq` and `nmi` for the next step boundary (R236); nothing where the inputs are
absent. -/
def State.present (irq nmi : Bool) (s : State) : State :=
  { s with inputs := s.inputs.map (fun r => { r with irq := irq, nmi := nmi }) }

/-- A step with the input values the host presents for it (R236). -/
def stepWith (irq nmi : Bool) (s : State) : Result := step (s.present irq nmi)

/-! ### `run(n)` -/

/-- What `run` returns (R100): the state it leaves, whose `cycles` is the total, and the error if one occurred. -/
structure RunResult where
  state : State
  error : Option Fault
deriving DecidableEq, Repr

/-- At most `k` steps, stopping at the first error (R100), where the host does not change the request inputs. -/
def runSteps : Nat → State → RunResult
  | 0, s => ⟨s, none⟩
  | k + 1, s =>
    match step s with
    | .next t => runSteps k t
    | .fault f => ⟨s.afterUnknownOpcode, some f⟩
    | .refused _ => ⟨s, none⟩

/-- `run(n)`: the total starts at 0 (R107). -/
def run (n : Nat) (s : State) : RunResult := runSteps n { s with cycles := 0 }

/-- The steps of R100 with the request inputs an argument of each (R236): one entry for every step, in order. -/
def runStepsWith : List RequestLevels → State → RunResult
  | [], s => ⟨s, none⟩
  | l :: rest, s =>
    match stepWith l.irq l.nmi s with
    | .next t => runStepsWith rest t
    | .fault f => ⟨(s.present l.irq l.nmi).afterUnknownOpcode, some f⟩
    | .refused _ => ⟨s, none⟩

/-- `run(n)` where the host presents input values for every step (R236): `n` is the number of entries. -/
def runWith (levels : List RequestLevels) (s : State) : RunResult := runStepsWith levels { s with cycles := 0 }

/-! ### Between calls -/

/-- The introspection port (R109): the registers and the status byte with bit 5 = 1 and bit 4 = 0. -/
structure Introspection where
  a : Byte
  x : Byte
  y : Byte
  sp : Byte
  pc : Word
  p : Byte
deriving DecidableEq, Repr

/-- Read the introspection port (R109). -/
def State.introspect (s : State) : Introspection := ⟨s.a, s.x, s.y, s.sp, s.pc, s.pByte false⟩

/-- The host writes its memory between calls (R53, R269): no port call of the core. -/
def State.hostWrite (address : Word) (b : Byte) (s : State) : State := { s with mem := s.mem.write address b }

end Sys2Proof.Machine
end

