-- ==== Sys2Proof/Safety.lean ====
section
/-!
DEFINITION. The terms claims are stated in: when a run is safe, an instruction's addressing mode and operand byte as
functions of its syntax, its cost by the descriptor (40_execution_engine.md R104 to R106), the addresses it stores to, the
flag-neutrality matrix (10_state.md R21), which instructions use which register (R10 to R13), and the replay of a list of
port calls (20_memory.md R48).
-/

namespace Sys2Proof.Machine

/-! ### Outcomes and runs -/

/-- The next state an answer gives, if it is one. -/
def nextOf : Result → Option State
  | .next s => some s
  | .fault _ => none
  | .refused _ => none

/-- The first `n` steps raise no `UnknownOpcode` (R231: a claim about a program takes this as a premise or proves it). -/
def runsSafely (n : Nat) (s : State) : Prop := (runSteps n s).error = none

/-! ### What an instruction's syntax says -/

/-- The memory addressing mode of an instruction with its operand, if its operand is in memory (R66, R92). -/
def addrModeOf : Instr → Option AddrMode
  | .ldaZp z | .ldxZp z | .ldyZp z | .staZp z | .stxZp z | .styZp z | .andZp z | .oraZp z | .eorZp z | .bitZp z
  | .adcZp z | .sbcZp z | .cmpZp z | .cpxZp z | .cpyZp z | .incZp z | .decZp z | .aslZp z | .lsrZp z | .rolZp z
  | .rorZp z => some (.zp z)
  | .ldaZpX z | .ldyZpX z | .staZpX z | .styZpX z | .andZpX z | .oraZpX z | .eorZpX z | .adcZpX z | .sbcZpX z
  | .cmpZpX z | .incZpX z | .decZpX z | .aslZpX z | .lsrZpX z | .rolZpX z | .rorZpX z => some (.zpX z)
  | .ldxZpY z | .stxZpY z => some (.zpY z)
  | .ldaAbs w | .ldxAbs w | .ldyAbs w | .staAbs w | .stxAbs w | .styAbs w | .andAbs w | .oraAbs w | .eorAbs w
  | .bitAbs w | .adcAbs w | .sbcAbs w | .cmpAbs w | .cpxAbs w | .cpyAbs w | .incAbs w | .decAbs w | .aslAbs w
  | .lsrAbs w | .rolAbs w | .rorAbs w | .jmpAbs w | .jsr w => some (.abs w)
  | .ldaAbsX w | .ldyAbsX w | .staAbsX w | .andAbsX w | .oraAbsX w | .eorAbsX w | .adcAbsX w | .sbcAbsX w
  | .cmpAbsX w | .incAbsX w | .decAbsX w | .aslAbsX w | .lsrAbsX w | .rolAbsX w | .rorAbsX w => some (.absX w)
  | .ldaAbsY w | .ldxAbsY w | .staAbsY w | .andAbsY w | .oraAbsY w | .eorAbsY w | .adcAbsY w | .sbcAbsY w
  | .cmpAbsY w => some (.absY w)
  | .jmpInd p => some (.ind p)
  | .ldaIndX z | .staIndX z | .andIndX z | .oraIndX z | .eorIndX z | .adcIndX z | .sbcIndX z | .cmpIndX z => some (.indX z)
  | .ldaIndY z | .staIndY z | .andIndY z | .oraIndY z | .eorIndY z | .adcIndY z | .sbcIndY z | .cmpIndY z => some (.indY z)
  | .ldaImm _ | .ldxImm _ | .ldyImm _ | .andImm _ | .oraImm _ | .eorImm _ | .adcImm _ | .sbcImm _ | .cmpImm _
  | .cpxImm _ | .cpyImm _ | .tax | .tay | .txa | .tya | .tsx | .txs | .pha | .php | .pla | .plp | .inx | .iny
  | .dex | .dey | .rts | .clc | .sec | .cli | .sei | .cld | .sed | .clv | .nop | .brk | .rti | .aslAcc | .lsrAcc
  | .rolAcc | .rorAcc | .bpl _ | .bmi _ | .bvc _ | .bvs _ | .bcc _ | .bcs _ | .bne _ | .beq _ => none

/-- The effective address of an instruction whose operand is in memory (R70 to R79); 0 for any other instruction. -/
def eaOf (i : Instr) (s : State) : Word := ((addrModeOf i).map (fun m => m.ea s)).getD 0#16

/-- `Operand()` (R81): the immediate byte, the accumulator, or the byte at the effective address. -/
def operandOf (i : Instr) (s : State) : Byte :=
  match i.mode with
  | .IMM => i.operandBytes.headD 0#8
  | .ACC => s.a
  | _ => s.mem.read (eaOf i s)

/-- The pointer reads of an instruction (R45 (3)). -/
def pointerReadsOf (i : Instr) (s : State) : List PortCall := ((addrModeOf i).map (fun m => m.pointerReads s)).getD []

/-- The reads of an instruction that takes a data byte as its operand: the pointer's, then the operand's (R45, R81). -/
def operandReads (i : Instr) (s : State) : List PortCall :=
  match addrModeOf i with
  | none => []
  | some m => m.pointerReads s ++ [.read (m.ea s) (s.mem.read (m.ea s))]

/-- The page cross the resolver reports (R80). -/
def crossedOf (i : Instr) (s : State) : Bool := ((addrModeOf i).map (fun m => m.crossed s)).getD false

/-- The base cycles of the instruction's descriptor (R62). -/
def baseCyclesOf (i : Instr) : Nat := ((descriptorOf i.opcode).map Descriptor.baseCycles).getD 0

/-- The penalty flag of the instruction's descriptor (R62, R105). -/
def penaltyFlagOf (i : Instr) : Bool := ((descriptorOf i.opcode).map Descriptor.pageCrossPenalty).getD false

/-- The cost of an instruction that is no branch: base cycles, and one more when the flag is set and a page is crossed
(R104, R105). -/
def costOf (i : Instr) (s : State) : Nat := baseCyclesOf i + if penaltyFlagOf i && crossedOf i s then 1 else 0

/-- An opcode's row as the instruction rules list it: opcode, mode, bytes, base cycles, penalty flag. -/
structure Encoding where
  opcode : Byte
  mode : Mode
  bytes : Nat
  cycles : Nat
  penalty : Bool
deriving DecidableEq, Repr

/-- The rows of the decoder table for one operation (R91). -/
def encodingsOf (op : Operation) : List Encoding :=
  (opcodeTable.filter (fun r => r.descriptor.operation == op)).map fun r =>
    ⟨r.opcode, r.descriptor.mode, r.descriptor.mode.length, r.descriptor.baseCycles, r.descriptor.pageCrossPenalty⟩

/-- The base cost of the state after an instruction: its cycles, and the port calls it made after its fetch. -/
def State.spent (s : State) (cycles : Nat) (calls : List PortCall) : State :=
  { s with cycles := s.cycles + cycles, bus := s.bus ++ calls }

/-! ### Unknown opcodes -/

/-- The 105 unknown opcode bytes as R93 lists them, first part. -/
def unknownOpcodes1 : List Byte :=
  [0x02#8, 0x03#8, 0x04#8, 0x07#8, 0x0B#8, 0x0C#8, 0x0F#8, 0x12#8, 0x13#8, 0x14#8, 0x17#8, 0x1A#8, 0x1B#8, 0x1C#8,
   0x1F#8, 0x22#8, 0x23#8, 0x27#8, 0x2B#8, 0x2F#8, 0x32#8, 0x33#8, 0x34#8, 0x37#8, 0x3A#8, 0x3B#8, 0x3C#8, 0x3F#8,
   0x42#8, 0x43#8, 0x44#8, 0x47#8, 0x4B#8, 0x4F#8, 0x52#8]

/-- The 105 unknown opcode bytes as R93 lists them, second part. -/
def unknownOpcodes2 : List Byte :=
  [0x53#8, 0x54#8, 0x57#8, 0x5A#8, 0x5B#8, 0x5C#8, 0x5F#8, 0x62#8, 0x63#8, 0x64#8, 0x67#8, 0x6B#8, 0x6F#8, 0x72#8,
   0x73#8, 0x74#8, 0x77#8, 0x7A#8, 0x7B#8, 0x7C#8, 0x7F#8, 0x80#8, 0x82#8, 0x83#8, 0x87#8, 0x89#8, 0x8B#8, 0x8F#8,
   0x92#8, 0x93#8, 0x97#8, 0x9B#8, 0x9C#8, 0x9E#8, 0x9F#8]

/-- The 105 unknown opcode bytes as R93 lists them, third part. -/
def unknownOpcodes3 : List Byte :=
  [0xA3#8, 0xA7#8, 0xAB#8, 0xAF#8, 0xB2#8, 0xB3#8, 0xB7#8, 0xBB#8, 0xBF#8, 0xC2#8, 0xC3#8, 0xC7#8, 0xCB#8, 0xCF#8,
   0xD2#8, 0xD3#8, 0xD4#8, 0xD7#8, 0xDA#8, 0xDB#8, 0xDC#8, 0xDF#8, 0xE2#8, 0xE3#8, 0xE7#8, 0xEB#8, 0xEF#8, 0xF2#8,
   0xF3#8, 0xF4#8, 0xF7#8, 0xFA#8, 0xFB#8, 0xFC#8, 0xFF#8]

/-- The 105 unknown opcode bytes (R93). -/
def unknownOpcodes : List Byte := unknownOpcodes1 ++ unknownOpcodes2 ++ unknownOpcodes3

/-! ### Flags -/

/-- The six flags (R16). -/
inductive StatusFlag where
  | N | V | D | I | Z | C
deriving DecidableEq, Repr

/-- The value of a flag. -/
def State.flag (s : State) : StatusFlag → Bool
  | .N => s.n
  | .V => s.v
  | .D => s.d
  | .I => s.i
  | .Z => s.z
  | .C => s.c

/-- The flag-neutrality matrix (R21): the flags each instruction writes; it is neutral for the others. -/
def flagsWritten : Operation → List StatusFlag
  | .ADC | .SBC => [.N, .V, .Z, .C]
  | .AND | .DEC | .DEX | .DEY | .EOR | .INC | .INX | .INY | .LDA | .LDX | .LDY | .ORA | .PLA | .TAX | .TAY | .TSX
  | .TXA | .TYA => [.N, .Z]
  | .ASL | .CMP | .CPX | .CPY | .LSR | .ROL | .ROR => [.N, .Z, .C]
  | .BCC | .BCS | .BEQ | .BMI | .BNE | .BPL | .BVC | .BVS | .JMP | .JSR | .NOP | .PHA | .PHP | .RTS | .STA | .STX
  | .STY | .TXS => []
  | .BIT => [.N, .V, .Z]
  | .BRK | .CLI | .SEI => [.I]
  | .CLC | .SEC => [.C]
  | .CLD | .SED => [.D]
  | .CLV => [.V]
  | .PLP | .RTI => [.N, .V, .D, .I, .Z, .C]

/-- The value of a byte's sign, as N shows it: its two's complement reading is negative (R20). -/
def isNegative (b : Byte) : Bool := decide (128 ≤ b.toNat)

/-- The value of Z for a byte (R20). -/
def isZero (b : Byte) : Bool := decide (b.toNat = 0)

/-! ### Branches and interrupts -/

/-- Whether a branch is taken: the flag has the value it tests (R194 to R201); false for any other instruction. -/
def branchTaken (i : Instr) (s : State) : Bool :=
  match i.operation with
  | .BPL => !s.n
  | .BMI => s.n
  | .BVC => !s.v
  | .BVS => s.v
  | .BCC => !s.c
  | .BCS => s.c
  | .BNE => !s.z
  | .BEQ => s.z
  | _ => false

/-- The cycles of a taken branch beyond its base: one, and one more when the target lies in another page than the next
instruction (R106); 0 for any other instruction. -/
def branchExtraOf (i : Instr) (s : State) : Nat :=
  let target := ((s.pc.toNat : Int) + (i.operandBytes.headD 0#8).toInt) % 65536
  if branchTaken i s then if target / 256 = (s.pc.toNat : Int) / 256 then 1 else 2 else 0

/-- A request is serviced at this step boundary (R237 to R239). -/
def interruptDue (s : State) : Bool :=
  match s.inputs with
  | none => false
  | some r => r.nmiPending || (r.nmi && !r.nmiLast) || (r.irq && !s.i)

/-! ### Who uses which register (R10 to R13) -/

/-- The instructions that write A (R10). -/
def writesA (i : Instr) : Bool :=
  [.ADC, .SBC, .AND, .ORA, .EOR, .LDA, .PLA, .TXA, .TYA].contains i.operation || i.mode == .ACC

/-- The instructions that read A (R10). -/
def readsA (i : Instr) : Bool :=
  [.ADC, .SBC, .AND, .ORA, .EOR, .CMP, .BIT, .STA, .PHA, .TAX, .TAY].contains i.operation || i.mode == .ACC

/-- The instructions that write X (R11). -/
def writesX (i : Instr) : Bool := [.LDX, .TAX, .TSX, .INX, .DEX].contains i.operation

/-- The instructions that read X, as an operand or as an index (R11). -/
def readsX (i : Instr) : Bool :=
  [.STX, .TXA, .TXS, .CPX, .INX, .DEX].contains i.operation || [.ZPX, .ABSX, .INDX].contains i.mode

/-- The instructions that write Y (R12). -/
def writesY (i : Instr) : Bool := [.LDY, .TAY, .INY, .DEY].contains i.operation

/-- The instructions that read Y, as an operand or as an index (R12). -/
def readsY (i : Instr) : Bool :=
  [.STY, .TYA, .CPY, .INY, .DEY].contains i.operation || [.ZPY, .ABSY, .INDY].contains i.mode

/-- The instructions that write SP (R13). -/
def writesSP (i : Instr) : Bool := [.PHA, .PHP, .PLA, .PLP, .JSR, .RTS, .BRK, .RTI, .TXS].contains i.operation

/-- The instructions that write PC otherwise than by the fetch (R14). -/
def writesPC (i : Instr) : Bool :=
  [.JMP, .JSR, .RTS, .RTI, .BRK, .BPL, .BMI, .BVC, .BVS, .BCC, .BCS, .BNE, .BEQ].contains i.operation

/-! ### Stores and port calls -/

/-- The addresses an instruction stores to, in order (R44, R45, R136, R137, R180, R191, R218). -/
def storedAddresses (i : Instr) (s : State) : List Word :=
  match i.operation with
  | .STA | .STX | .STY | .INC | .DEC => [eaOf i s]
  | .ASL | .LSR | .ROL | .ROR => if i.mode == .ACC then [] else [eaOf i s]
  | .PHA | .PHP => [stackAddress s.sp]
  | .JSR => [stackAddress s.sp, stackAddress (s.sp - 1#8)]
  | .BRK => [stackAddress s.sp, stackAddress (s.sp - 1#8), stackAddress (s.sp - 2#8)]
  | _ => []

/-- The byte `b` is at `address` afterwards, and every other byte is as before. -/
def storesOnly (address : Word) (b : Byte) (s t : State) : Prop :=
  ∀ other : Word, t.mem.read other = if other = address then b else s.mem.read other

/-- The data, stack and vector accesses of an operation beyond the instruction's bytes and its pointer: the counts listed
under R45. -/
def dataCallCount (i : Instr) : Nat :=
  match i.operation with
  | .LDA | .LDX | .LDY | .AND | .ORA | .EOR | .BIT | .ADC | .SBC | .CMP | .CPX | .CPY => if i.mode == .IMM then 0 else 1
  | .STA | .STX | .STY => 1
  | .INC | .DEC => 2
  | .ASL | .LSR | .ROL | .ROR => if i.mode == .ACC then 0 else 2
  | .PHA | .PHP | .PLA | .PLP => 1
  | .JSR | .RTS => 2
  | .RTI => 3
  | .BRK => 5
  | _ => 0

/-- The port calls of a step that runs the instruction: its bytes, its pointer's two bytes in the indirect modes, and its
own accesses (the counts listed under R45). -/
def portCallCount (i : Instr) : Nat :=
  i.mode.length + (if [.IND, .INDX, .INDY].contains i.mode then 2 else 0) + dataCallCount i

/-- Replay port calls on a flat memory: a read must return the byte the memory holds then, a write stores its byte (R48
(c)). -/
def Memory.replay : List PortCall → Memory → Option Memory
  | [], m => some m
  | .read address value :: rest, m => if m.read address = value then Memory.replay rest m else none
  | .write address value :: rest, m => Memory.replay rest (m.write address value)

end Sys2Proof.Machine
end

