-- ==== Sys2Proof/Certificates/Slice0/Obligations.lean ====
section
/-!
DEFINITION. The statements for the provers. Each `def Obligations.<Name> : Prop` says one thing about the machine for every
state (and every operand value); OBLIGATIONS.json gives its rules. Two notes hold for all of them. `State.cycles` is the
total of R100 for the `run` call in progress and `State.bus` the list of port calls (log 4): `s.spent k calls` is `s` with
`k` cycles more and those calls made. `exec` starts in the state the fetch leaves, so that a statement about `exec` counts the
instruction's cycles whole but not the reads of its own bytes; `StepRunsTheDecodedInstruction` adds those.
-/

open Sys2Proof Sys2Proof.Machine

/-! ### Encoding and decoding -/

/-- Decoding an encoded instruction gives it back, whatever bytes follow it: every constructor, every operand value. -/
def Obligations.DecodeInvertsEncode : Prop :=
  ∀ (i : Instr) (rest : List Byte), decode (encode i ++ rest) = .ok (i, rest)

/-- What decodes is an encoding: each byte string has one meaning. -/
def Obligations.EncodeInvertsDecode : Prop :=
  ∀ (bytes rest : List Byte) (i : Instr), decode bytes = .ok (i, rest) → bytes = encode i ++ rest

/-- R93: the unknown opcodes are exactly the 105 bytes listed there, and a step faults, recording the byte and its address,
exactly when it fetches one. `u` is the state after the interrupt check, which is `s` where there are no inputs. -/
def Obligations.UnknownOpcodesAreTheListedBytes : Prop :=
  unknownOpcodes.length = 105 ∧ unknownOpcodes.Nodup ∧
  (∀ b : Byte, descriptorOf b = none ↔ b ∈ unknownOpcodes) ∧
  ∀ s u : State, s.serviceInterrupt = u →
    (u.mem.read u.pc ∈ unknownOpcodes → step s = .fault (.unknownOpcode (u.mem.read u.pc) u.pc)) ∧
    (u.mem.read u.pc ∉ unknownOpcodes → ∃ t, step s = .next t)

/-- The thirteen words R96 writes out, and one of each remaining family, decode to what they stand for. -/
def Obligations.DecoderReadsTheSpecsWords : Prop :=
  decode [0xA9#8, 0x42#8] = .ok (.ldaImm 0x42#8, []) ∧
  decode [0xA5#8, 0x10#8] = .ok (.ldaZp 0x10#8, []) ∧
  decode [0xB5#8, 0x10#8] = .ok (.ldaZpX 0x10#8, []) ∧
  decode [0xB6#8, 0x10#8] = .ok (.ldxZpY 0x10#8, []) ∧
  decode [0xAD#8, 0x34#8, 0x12#8] = .ok (.ldaAbs 0x1234#16, []) ∧
  decode [0xBD#8, 0x34#8, 0x12#8] = .ok (.ldaAbsX 0x1234#16, []) ∧
  decode [0xB9#8, 0x34#8, 0x12#8] = .ok (.ldaAbsY 0x1234#16, []) ∧
  decode [0xA1#8, 0x10#8] = .ok (.ldaIndX 0x10#8, []) ∧
  decode [0xB1#8, 0x10#8] = .ok (.ldaIndY 0x10#8, []) ∧
  decode [0x6C#8, 0x34#8, 0x12#8] = .ok (.jmpInd 0x1234#16, []) ∧
  decode [0x0A#8] = .ok (.aslAcc, []) ∧
  decode [0xD0#8, 0x03#8] = .ok (.bne 0x03#8, []) ∧
  decode [0x00#8] = .ok (.brk, []) ∧
  decode [0x8D#8, 0x00#8, 0x02#8] = .ok (.staAbs 0x0200#16, []) ∧
  decode [0x68#8] = .ok (.pla, []) ∧
  decode [0x69#8, 0x42#8] = .ok (.adcImm 0x42#8, []) ∧
  decode [0xFE#8, 0xFF#8, 0x12#8] = .ok (.incAbsX 0x12FF#16, [])

/-- The descriptor of an instruction's opcode byte names its operation and its mode, the matrix of R92 admits the pair, and
the encoding is as long as the mode says. -/
def Obligations.DescriptorNamesOperationModeAndLength : Prop :=
  ∀ i : Instr, i.wellFormed = true ∧ (encode i).length = i.mode.length ∧
    ∃ d, descriptorOf i.opcode = some d ∧ d.operation = i.operation ∧ d.mode = i.mode ∧ 2 ≤ d.baseCycles ∧ d.baseCycles ≤ 7

/-! ### The step -/

/-- A step runs the decoded instruction: when the bytes at the program counter decode to `i` (`u` is the state after the
interrupt check, `s` itself where there are no inputs), the step is `exec i` in the state with the program counter past the
instruction and its bytes read, in address order. The second part says the same from the encoding's bytes. -/
def Obligations.StepRunsTheDecodedInstruction : Prop :=
  (∀ s : State, s.inputs = none → s.serviceInterrupt = s) ∧
  ∀ (s u : State) (i : Instr), s.serviceInterrupt = u →
    (∃ rest, decode [u.mem.read u.pc, u.mem.read (u.pc + 1#16), u.mem.read (u.pc + 2#16)] = .ok (i, rest)) ∨
      encode i = (List.range i.length).map (fun k => u.mem.read (u.pc + BitVec.ofNat 16 k)) →
    step s = exec i
      { u with
        pc := u.pc + BitVec.ofNat 16 i.length
        bus := u.bus ++ (List.range i.length).map fun k =>
          .read (u.pc + BitVec.ofNat 16 k) (u.mem.read (u.pc + BitVec.ofNat 16 k)) }

/-- R230, R231, R241: an unknown opcode stops the run with its byte and address, however many instructions were asked for; of
the failing step only the opcode read and the advance of the program counter by one have happened, and what the `n` steps
before it did stays. `u` is the state after the interrupt check (R241), `s` itself where there are no inputs. That the
program counter is left one past the opcode is the spec's own reading (R231, D15), and that the fault carries no state but
`State.afterUnknownOpcode` gives it is the model's (log 9, DEDUCED). -/
def Obligations.UnknownOpcodeLeavesOnlyTheFetch : Prop :=
  ∀ (s u : State) (b : Byte), s.serviceInterrupt = u → u.mem.read u.pc = b → descriptorOf b = none →
    (s.inputs = none → u = s) ∧ step s = .fault (.unknownOpcode b u.pc) ∧
    ∀ (n k : Nat) (s0 : State), runSteps n s0 = ⟨s, none⟩ → runSteps (n + (k + 1)) s0 =
      ⟨{ u with pc := u.pc + 1#16, bus := u.bus ++ [.read u.pc b] }, some (.unknownOpcode b u.pc)⟩

/-- Every instruction completes in every state, in 2 to 7 cycles, and leaves the interrupt inputs alone. -/
def Obligations.EveryInstructionCompletes : Prop :=
  ∀ (i : Instr) (s : State), ∃ t, exec i s = .next t ∧ t.inputs = s.inputs ∧
    s.cycles + 2 ≤ t.cycles ∧ t.cycles ≤ s.cycles + 7

/-- R105, R106: what an instruction costs is its descriptor's base cycles, one more where the descriptor's flag is set and a
page is crossed, and for a taken branch one more, or two into another page than the next instruction's; and the flag is set
for exactly the 23 opcodes R105 lists. -/
def Obligations.CostIsBaseCyclesAndPenalties : Prop :=
  (∀ (i : Instr) (s : State), ∃ t, exec i s = .next t ∧ t.cycles = s.cycles + costOf i s + branchExtraOf i s) ∧
  (∀ b : Byte, (∃ d, descriptorOf b = some d ∧ d.pageCrossPenalty = true) ↔
    b ∈ [0x7D#8, 0x79#8, 0x71#8, 0x3D#8, 0x39#8, 0x31#8, 0xDD#8, 0xD9#8, 0xD1#8, 0x5D#8, 0x59#8, 0x51#8, 0xBD#8, 0xB9#8,
      0xB1#8, 0x1D#8, 0x19#8, 0x11#8, 0xFD#8, 0xF9#8, 0xF1#8, 0xBE#8, 0xBC#8])

/-- A step costs 2 to 7 cycles without interrupt inputs; with them, 7 more exactly when a request is serviced (R238, R239,
R241). When one is, `interruptDue` says by the model's reading (log 5): a rising edge of `nmi` counts at the boundary where it
is first seen (DEDUCED). -/
def Obligations.StepCostsTwoToFourteenCycles : Prop :=
  ∀ s t : State, step s = .next t →
    s.serviceInterrupt.cycles + 2 ≤ t.cycles ∧ t.cycles ≤ s.serviceInterrupt.cycles + 7 ∧
    s.serviceInterrupt.cycles = s.cycles + (if interruptDue s then 7 else 0)

/-- R108 with R100: `run(0)` does nothing; without an error, running `a` and then `b` instructions is running `a + b`, the
totals adding up; after an error no further step is attempted. The same for `runWith`, whose list gives the request inputs of
each step (R236), so that what the first steps do does not depend on the inputs of later ones; where there are no inputs it
is `run` of the list's length, and presenting the standing levels at every step is `run`, because the levels are kept (log 5,
the model's choice). -/
def Obligations.RunsCompose : Prop :=
  ∀ (a b : Nat) (s : State), run 0 s = ⟨{ s with cycles := 0 }, none⟩ ∧
    ((run a s).error = none → run (a + b) s =
      ⟨{ (run b (run a s).state).state with cycles := (run a s).state.cycles + (run b (run a s).state).state.cycles },
        (run b (run a s).state).error⟩) ∧
    ((run a s).error ≠ none → run (a + b) s = run a s) ∧
    (∀ ls ms : List RequestLevels,
      ((runWith ls s).error = none → runWith (ls ++ ms) s =
        ⟨{ (runWith ms (runWith ls s).state).state with
            cycles := (runWith ls s).state.cycles + (runWith ms (runWith ls s).state).state.cycles },
          (runWith ms (runWith ls s).state).error⟩) ∧
      ((runWith ls s).error ≠ none → runWith (ls ++ ms) s = runWith ls s) ∧
      (s.inputs = none → runWith ls s = run ls.length s)) ∧
    (∀ r : InterruptInputs, s.inputs = some r → runWith (List.replicate a ⟨r.irq, r.nmi⟩) s = run a s)

/-- The total of `run(n)` is at most 14 n, at most 7 n without interrupt inputs, and at least 2 n when no error stops it,
whatever request inputs the host presents for each of the n steps (R236). -/
def Obligations.RunTotalsAreBounded : Prop :=
  ∀ (n : Nat) (s : State), (run n s).state.cycles ≤ 14 * n ∧
    (s.inputs = none → (run n s).state.cycles ≤ 7 * n) ∧
    ((run n s).error = none → 2 * n ≤ (run n s).state.cycles) ∧
    ∀ ls : List RequestLevels, ls.length = n → (runWith ls s).state.cycles ≤ 14 * n ∧
      ((runWith ls s).error = none → 2 * n ≤ (runWith ls s).state.cycles)

/-- No transition reads the cycle total or the record of port calls: changing both changes nothing else, and the same
cycles and calls are added. -/
def Obligations.CyclesAndPortRecordAreNeverRead : Prop :=
  ∀ (s : State) (k : Nat) (l : List PortCall),
    (∀ t, step s = .next t → ∃ calls, t.bus = s.bus ++ calls ∧ s.cycles ≤ t.cycles ∧
      step { s with cycles := k, bus := l } = .next { t with cycles := k + (t.cycles - s.cycles), bus := l ++ calls }) ∧
    (∀ f, step s = .fault f → step { s with cycles := k, bus := l } = .fault f)

/-- The port calls of a step account for all it does to memory: replayed in order on the memory before, every read returns
what the memory then holds and the writes give exactly the memory after. That a read returns the byte last written is the
flat memory of R40 and R48, which the model takes (log 7, DESIGN CHOICE). -/
def Obligations.PortCallsAccountForMemory : Prop :=
  ∀ s t : State, step s = .next t → ∃ calls, t.bus = s.bus ++ calls ∧ Memory.replay calls s.mem = some t.mem

/-- The number of port calls of each instruction is the one listed under R45; a step makes at most 6, or 11 where it
services an interrupt. When it does, `interruptDue` says by the model's reading of the edge of `nmi` (log 5, DEDUCED). -/
def Obligations.PortCallCountsPerInstruction : Prop :=
  (∀ (i : Instr) (s : State), ∃ t, exec i s = .next t ∧ t.bus.length + i.length = s.bus.length + portCallCount i) ∧
  (∀ s t : State, step s = .next t → t.bus.length ≤ s.bus.length + 6 + (if interruptDue s then 5 else 0))

/-- The model's choice (log 3): the instruction a table row's bits decode to is what the next step runs when
`State.withFetchWord` has placed those bits for it. Placing bytes where the next step fetches stands for the host's load (R264;
DEDUCED), and withdrawing pending interrupt requests with it is a DESIGN CHOICE. -/
def Obligations.PlacedWordIsRunByTheNextStep : Prop :=
  ∀ (s : State) (nbits w : Nat) (i : Instr), decodeTableWord nbits w = some i →
    ∃ u, step (s.withFetchWord nbits w) = exec i u ∧ u.pc = s.pc + BitVec.ofNat 16 i.length ∧
      u.mem = (s.withFetchWord nbits w).mem ∧ u.a = s.a ∧ u.x = s.x ∧ u.y = s.y ∧ u.sp = s.sp ∧ u.cycles = s.cycles ∧
      ∀ f, u.flag f = s.flag f

/-! ### Power-up and reset -/

/-- R260, R261: `new` gives the registers, memory and inputs it is handed, SP = 0xFD, I = 1 and the other flags 0, and makes
no port call; `reset()` sets I, SP and PC, reads the vector's two bytes low first, clears the NMI latch (R238), and changes
nothing else (R262): not the cycle total, and the introspection byte only in bit 2. Where the inputs are present, that both
levels and the level the edge is compared with are deasserted after `new`, and that `reset()` keeps them, is the model's choice
(log 5, DESIGN CHOICE). -/
def Obligations.NewAndResetSetOnlyTheirRegisters : Prop :=
  (∀ (a x y : Byte) (pc : Word) (present : Bool) (mem : Memory), State.new a x y pc present mem =
    { a := a, x := x, y := y, sp := 0xFD#8, pc := pc, n := false, v := false, d := false, i := true, z := false, c := false,
      inputs := if present then some ⟨false, false, false, false⟩ else none, mem := mem, cycles := 0, bus := [] } ∧
    (State.new a x y pc present mem).introspect.p = 0x24#8) ∧
  (∀ s : State, s.resetCall =
    { s with
      i := true
      sp := 0xFD#8
      pc := BitVec.ofNat 16 ((s.mem.read 0xFFFD#16).toNat * 256 + (s.mem.read 0xFFFC#16).toNat)
      inputs := s.inputs.map fun r => { r with nmiPending := false }
      bus := s.bus ++ [.read 0xFFFC#16 (s.mem.read 0xFFFC#16), .read 0xFFFD#16 (s.mem.read 0xFFFD#16)] } ∧
    s.resetCall.introspect.p = s.introspect.p ||| 0x04#8)

/-- The model's choice (log 1, log 2): the state after reset is `new` and `reset()` on a memory with nothing listed, with
the power-up values Config names, whatever the power-up program counter was; its memory is canonical. -/
def Obligations.ResetStateIsNewThenReset : Prop :=
  ∀ pc : Word, State.reset = (State.new Config.powerUpA Config.powerUpX Config.powerUpY pc false []).resetCall ∧
    State.reset.mem.wf = true ∧ State.reset.introspect.p = 0x24#8

/-- Every step keeps the canonical form of memory. -/
def Obligations.StepKeepsMemoryCanonical : Prop :=
  ∀ s t : State, s.mem.wf = true → step s = .next t → t.mem.wf = true

/-! ### Registers and flags -/

/-- R13: a push writes at 0x0100 + SP and then decrements SP, a pull increments SP and then reads at 0x0100 + SP, both
modulo 256 and so never outside page 1; a pull after a push gives the byte back and restores SP. -/
def Obligations.StackWrapsWithinPageOne : Prop :=
  ∀ (s : State) (b : Byte),
    (stackAddress s.sp).toNat = 256 + s.sp.toNat ∧
    storesOnly (stackAddress s.sp) b s (s.push b) ∧ (s.push b).sp.toNat = (s.sp.toNat + 255) % 256 ∧
    s.push b = { s with sp := (s.push b).sp, mem := (s.push b).mem, bus := s.bus ++ [.write (stackAddress s.sp) b] } ∧
    s.pull.sp.toNat = (s.sp.toNat + 1) % 256 ∧ s.pulled = s.mem.read (stackAddress s.pull.sp) ∧
    s.pull = { s with sp := s.pull.sp, bus := s.bus ++ [.read (stackAddress s.pull.sp) s.pulled] } ∧
    (s.push b).pulled = b ∧ (s.push b).pull.sp = s.sp

/-- R21: every instruction leaves each flag that its row of the matrix does not mark, and the fixed values of the matrix hold;
the interrupt sequence and `reset()` write I only, setting it; the resolver, the fetch, the stack and memory accesses write
none. -/
def Obligations.FlagNeutralityMatrix : Prop :=
  (∀ (i : Instr) (s : State), ∃ t, exec i s = .next t ∧
    (∀ f, f ∉ flagsWritten i.operation → t.flag f = s.flag f) ∧
    (i.operation = .BRK ∨ i.operation = .SEI → t.i = true) ∧ (i.operation = .CLI → t.i = false) ∧
    (i.operation = .CLC → t.c = false) ∧ (i.operation = .SEC → t.c = true) ∧
    (i.operation = .CLD → t.d = false) ∧ (i.operation = .SED → t.d = true) ∧
    (i.operation = .CLV → t.v = false) ∧ (i.operation = .LSR → t.n = false)) ∧
  (∀ (s : State) (vector : Word) (b : Bool) (f : StatusFlag),
    (s.interruptSequence vector b).flag f = (if f = .I then true else s.flag f) ∧
    s.resetCall.flag f = (if f = .I then true else s.flag f)) ∧
  (∀ (s : State) (m : AddrMode) (address : Word) (b : Byte) (f : StatusFlag),
    (m.resolve s).flag f = s.flag f ∧ s.fetch8.flag f = s.flag f ∧ (s.push b).flag f = s.flag f ∧
    s.pull.flag f = s.flag f ∧ (s.readPort address).flag f = s.flag f ∧ (s.memWrite address b).flag f = s.flag f)

/-- R10 to R14: an instruction writes A, X, Y, SP, or the program counter beyond the fetch, only if the spec lists it. -/
def Obligations.RegistersAreWrittenByTheirInstructionsOnly : Prop :=
  ∀ (i : Instr) (s : State), ∃ t, exec i s = .next t ∧
    (writesA i = false → t.a = s.a) ∧ (writesX i = false → t.x = s.x) ∧ (writesY i = false → t.y = s.y) ∧
    (writesSP i = false → t.sp = s.sp) ∧ (writesPC i = false → t.pc = s.pc)

/-- R10 to R12: an instruction that the spec does not list as reading a register behaves alike whatever the register holds. -/
def Obligations.RegistersAreReadByTheirInstructionsOnly : Prop :=
  ∀ (i : Instr) (s : State) (b : Byte), ∃ t, exec i s = .next t ∧
    (readsA i = false → exec i { s with a := b } = .next (if writesA i then t else { t with a := b })) ∧
    (readsX i = false → exec i { s with x := b } = .next (if writesX i then t else { t with x := b })) ∧
    (readsY i = false → exec i { s with y := b } = .next (if writesY i then t else { t with y := b }))

/-- R17: the bits of the status byte, in every pushed copy (`b` is bit 4) and on the introspection port, where bit 4 is 0;
the port shows the registers as they are. -/
def Obligations.StatusByteHasTheFlagsAtTheirBits : Prop :=
  ∀ (s : State) (b : Bool),
    (s.pByte b).getLsbD 7 = s.n ∧ (s.pByte b).getLsbD 6 = s.v ∧ (s.pByte b).getLsbD 5 = true ∧
    (s.pByte b).getLsbD 4 = b ∧ (s.pByte b).getLsbD 3 = s.d ∧ (s.pByte b).getLsbD 2 = s.i ∧
    (s.pByte b).getLsbD 1 = s.z ∧ (s.pByte b).getLsbD 0 = s.c ∧
    s.introspect = ⟨s.a, s.x, s.y, s.sp, s.pc, s.pByte false⟩

/-- R19: `SetP(v)` loads the six flags from their bits, ignores bits 5 and 4, and writes nothing else; the status byte
afterwards is `(v & 0xCF) | 0x20 | (b << 4)`. -/
def Obligations.SetPLoadsTheFlagsFromTheirBits : Prop :=
  ∀ (s : State) (v : Byte) (b : Bool),
    s.setP v = { s with
      n := v.getLsbD 7, v := v.getLsbD 6, d := v.getLsbD 3, i := v.getLsbD 2, z := v.getLsbD 1, c := v.getLsbD 0 } ∧
    (s.setP v).pByte b = (v &&& 0xCF#8) ||| 0x20#8 ||| (BitVec.ofNat 8 b.toNat <<< 4)

/-- R20: `SetNZ(v)` sets N for a byte with bit 7 set and Z for zero, writes nothing else, and never sets both. -/
def Obligations.SetNZShowsSignAndZero : Prop :=
  ∀ (s : State) (v : Byte), s.setNZ v = { s with n := isNegative v, z := isZero v } ∧
    ¬((s.setNZ v).n = true ∧ (s.setNZ v).z = true)

/-- Every byte of memory that an instruction's form does not store to reads as before: the addresses are computed in the
state the instruction starts from. -/
def Obligations.MemoryChangesOnlyAtStoredAddresses : Prop :=
  ∀ (i : Instr) (s : State), ∃ t, exec i s = .next t ∧
    ∀ address : Word, address ∉ storedAddresses i s → t.mem.read address = s.mem.read address

/-- R14: after a step that is no control transfer, the program counter is the opcode's address plus the instruction's length,
modulo 65536. -/
def Obligations.SequentialStepsAdvanceByTheLength : Prop :=
  ∀ (s u : State) (i : Instr) (rest : List Byte), s.serviceInterrupt = u →
    decode [u.mem.read u.pc, u.mem.read (u.pc + 1#16), u.mem.read (u.pc + 2#16)] = .ok (i, rest) → writesPC i = false →
    ∃ t, step s = .next t ∧ t.pc.toNat = (u.pc.toNat + i.length) % 65536

/-! ### The resolver -/

/-- R70 to R72: the zero-page modes add their index modulo 256 and never cross a page. -/
def Obligations.ZeroPageAddressesWrapInPageZero : Prop :=
  ∀ (s : State) (z : Byte),
    ((AddrMode.zp z).ea s).toNat = z.toNat ∧
    ((AddrMode.zpX z).ea s).toNat = (z.toNat + s.x.toNat) % 256 ∧
    ((AddrMode.zpY z).ea s).toNat = (z.toNat + s.y.toNat) % 256 ∧
    ∀ m ∈ [AddrMode.zp z, .zpX z, .zpY z], m.crossed s = false ∧ m.resolve s = s

/-- R74 to R76, R80: the absolute modes add their index modulo 65536; a cross is a change of the high byte, that is a carry
out of the low byte. -/
def Obligations.AbsoluteAddressesWrapAndReportCrosses : Prop :=
  ∀ (s : State) (w : Word),
    (AddrMode.abs w).ea s = w ∧ (AddrMode.abs w).crossed s = false ∧
    ((AddrMode.absX w).ea s).toNat = (w.toNat + s.x.toNat) % 65536 ∧
    ((AddrMode.absY w).ea s).toNat = (w.toNat + s.y.toNat) % 65536 ∧
    ((AddrMode.absX w).crossed s = true ↔ ((AddrMode.absX w).ea s).toNat / 256 ≠ w.toNat / 256) ∧
    ((AddrMode.absX w).crossed s = true ↔ 256 ≤ w.toNat % 256 + s.x.toNat) ∧
    ((AddrMode.absY w).crossed s = true ↔ ((AddrMode.absY w).ea s).toNat / 256 ≠ w.toNat / 256) ∧
    ((AddrMode.absY w).crossed s = true ↔ 256 ≤ w.toNat % 256 + s.y.toNat) ∧
    ∀ m ∈ [AddrMode.abs w, .absX w, .absY w], m.resolve s = s

/-- R77 to R79: the indirect modes read a little-endian pointer, its second byte from the same page; the index of INDX is
added before, modulo 256, and that of INDY after, modulo 65536; only INDY crosses. The reads are recorded low byte first. -/
def Obligations.PointersAreReadWithinTheirPage : Prop :=
  ∀ (s : State) (p p' : Word) (z : Byte) (q q' : Word),
    (p'.toNat = p.toNat / 256 * 256 + (p.toNat % 256 + 1) % 256 →
      ((AddrMode.ind p).ea s).toNat = (s.mem.read p').toNat * 256 + (s.mem.read p).toNat ∧
      (AddrMode.ind p).crossed s = false ∧
      (AddrMode.ind p).resolve s = s.spent 0 [.read p (s.mem.read p), .read p' (s.mem.read p')]) ∧
    (q.toNat = (z.toNat + s.x.toNat) % 256 → q'.toNat = (q.toNat + 1) % 256 →
      ((AddrMode.indX z).ea s).toNat = (s.mem.read q').toNat * 256 + (s.mem.read q).toNat ∧
      (AddrMode.indX z).crossed s = false ∧
      (AddrMode.indX z).resolve s = s.spent 0 [.read q (s.mem.read q), .read q' (s.mem.read q')]) ∧
    (q.toNat = z.toNat → q'.toNat = (q.toNat + 1) % 256 →
      ((AddrMode.indY z).ea s).toNat =
        ((s.mem.read q').toNat * 256 + (s.mem.read q).toNat + s.y.toNat) % 65536 ∧
      ((AddrMode.indY z).crossed s = true ↔ 256 ≤ (s.mem.read q).toNat + s.y.toNat) ∧
      (AddrMode.indY z).resolve s = s.spent 0 [.read q (s.mem.read q), .read q' (s.mem.read q')])

/-! ### Loads and stores (R120 to R125) -/

/-- LDA, LDX, LDY (R120 to R122): the opcodes, and for every form the register, N and Z from the operand byte, one data read
at most, and nothing else but the cost. -/
def Obligations.LoadsPutTheOperandInTheRegister : Prop :=
  encodingsOf .LDA = [⟨0xA1#8, .INDX, 2, 6, false⟩, ⟨0xA5#8, .ZP, 2, 3, false⟩, ⟨0xA9#8, .IMM, 2, 2, false⟩,
      ⟨0xAD#8, .ABS, 3, 4, false⟩, ⟨0xB1#8, .INDY, 2, 5, true⟩, ⟨0xB5#8, .ZPX, 2, 4, false⟩,
      ⟨0xB9#8, .ABSY, 3, 4, true⟩, ⟨0xBD#8, .ABSX, 3, 4, true⟩] ∧
  encodingsOf .LDX = [⟨0xA2#8, .IMM, 2, 2, false⟩, ⟨0xA6#8, .ZP, 2, 3, false⟩, ⟨0xAE#8, .ABS, 3, 4, false⟩,
      ⟨0xB6#8, .ZPY, 2, 4, false⟩, ⟨0xBE#8, .ABSY, 3, 4, true⟩] ∧
  encodingsOf .LDY = [⟨0xA0#8, .IMM, 2, 2, false⟩, ⟨0xA4#8, .ZP, 2, 3, false⟩, ⟨0xAC#8, .ABS, 3, 4, false⟩,
      ⟨0xB4#8, .ZPX, 2, 4, false⟩, ⟨0xBC#8, .ABSX, 3, 4, true⟩] ∧
  ∀ (i : Instr) (s : State),
    (i.operation = .LDA → exec i s = .next { s.spent (costOf i s) (operandReads i s) with
      a := operandOf i s, n := isNegative (operandOf i s), z := isZero (operandOf i s) }) ∧
    (i.operation = .LDX → exec i s = .next { s.spent (costOf i s) (operandReads i s) with
      x := operandOf i s, n := isNegative (operandOf i s), z := isZero (operandOf i s) }) ∧
    (i.operation = .LDY → exec i s = .next { s.spent (costOf i s) (operandReads i s) with
      y := operandOf i s, n := isNegative (operandOf i s), z := isZero (operandOf i s) })

/-- STA, STX, STY (R123 to R125): the opcodes, and for every form the register's byte at the effective address, every other
byte as before, one data write and no data read, a fixed cost, and nothing else. -/
def Obligations.StoresWriteTheRegisterAtTheAddress : Prop :=
  encodingsOf .STA = [⟨0x81#8, .INDX, 2, 6, false⟩, ⟨0x85#8, .ZP, 2, 3, false⟩, ⟨0x8D#8, .ABS, 3, 4, false⟩,
      ⟨0x91#8, .INDY, 2, 6, false⟩, ⟨0x95#8, .ZPX, 2, 4, false⟩, ⟨0x99#8, .ABSY, 3, 5, false⟩,
      ⟨0x9D#8, .ABSX, 3, 5, false⟩] ∧
  encodingsOf .STX = [⟨0x86#8, .ZP, 2, 3, false⟩, ⟨0x8E#8, .ABS, 3, 4, false⟩, ⟨0x96#8, .ZPY, 2, 4, false⟩] ∧
  encodingsOf .STY = [⟨0x84#8, .ZP, 2, 3, false⟩, ⟨0x8C#8, .ABS, 3, 4, false⟩, ⟨0x94#8, .ZPX, 2, 4, false⟩] ∧
  ∀ (i : Instr) (s : State) (b : Byte),
    (i.operation = .STA ∧ b = s.a) ∨ (i.operation = .STX ∧ b = s.x) ∨ (i.operation = .STY ∧ b = s.y) →
    ∃ t, exec i s = .next t ∧ storesOnly (eaOf i s) b s t ∧
      t = { s.spent (baseCyclesOf i) (pointerReadsOf i s ++ [.write (eaOf i s) b]) with mem := t.mem }

/-! ### Transfers and the stack (R130 to R139) -/

/-- TAX, TAY, TXA, TYA, TSX, TXS (R130 to R135): the opcodes, the register moved, N and Z from it but for TXS, 2 cycles, and
nothing else. -/
def Obligations.TransfersMoveOneRegister : Prop :=
  encodingsOf .TAX = [⟨0xAA#8, .IMP, 1, 2, false⟩] ∧
  encodingsOf .TAY = [⟨0xA8#8, .IMP, 1, 2, false⟩] ∧
  encodingsOf .TXA = [⟨0x8A#8, .IMP, 1, 2, false⟩] ∧
  encodingsOf .TYA = [⟨0x98#8, .IMP, 1, 2, false⟩] ∧
  encodingsOf .TSX = [⟨0xBA#8, .IMP, 1, 2, false⟩] ∧
  encodingsOf .TXS = [⟨0x9A#8, .IMP, 1, 2, false⟩] ∧
  ∀ s : State,
    exec .tax s = .next { s.spent 2 [] with x := s.a, n := isNegative s.a, z := isZero s.a } ∧
    exec .tay s = .next { s.spent 2 [] with y := s.a, n := isNegative s.a, z := isZero s.a } ∧
    exec .txa s = .next { s.spent 2 [] with a := s.x, n := isNegative s.x, z := isZero s.x } ∧
    exec .tya s = .next { s.spent 2 [] with a := s.y, n := isNegative s.y, z := isZero s.y } ∧
    exec .tsx s = .next { s.spent 2 [] with x := s.sp, n := isNegative s.sp, z := isZero s.sp } ∧
    exec .txs s = .next { s.spent 2 [] with sp := s.x }

/-- PHA and PHP (R136, R137): the opcodes, the byte pushed (the accumulator; the status byte with bits 5 and 4 set), SP down
by one, every other byte of memory as before, 3 cycles, and nothing else. -/
def Obligations.PushesStoreBelowTheStack : Prop :=
  encodingsOf .PHA = [⟨0x48#8, .IMP, 1, 3, false⟩] ∧
  encodingsOf .PHP = [⟨0x08#8, .IMP, 1, 3, false⟩] ∧
  ∀ (i : Instr) (s : State) (b : Byte),
    (i = .pha ∧ b = s.a) ∨ (i = .php ∧ b = BitVec.ofNat 8 (s.n.toNat * 128 + s.v.toNat * 64 + 32 + 16 + s.d.toNat * 8 +
      s.i.toNat * 4 + s.z.toNat * 2 + s.c.toNat)) →
    ∃ t, exec i s = .next t ∧ storesOnly (0x0100#16 + zext s.sp) b s t ∧
      t = { s.spent 3 [.write (0x0100#16 + zext s.sp) b] with sp := s.sp - 1#8, mem := t.mem }

/-- PLA and PLP (R138, R139): the opcodes, SP up by one, the byte at the new SP into A with N and Z, or into the six flags
with bits 5 and 4 dropped, 4 cycles, and nothing else. After PLP the interrupt check of the next step uses the new I: this
clause is derived from R139 and R239, over the inputs as the model holds them (log 5: the levels kept for the next step, a
DESIGN CHOICE; an edge of `nmi` counted where it is first seen, DEDUCED). -/
def Obligations.PullsLoadFromTheStack : Prop :=
  encodingsOf .PLA = [⟨0x68#8, .IMP, 1, 4, false⟩] ∧
  encodingsOf .PLP = [⟨0x28#8, .IMP, 1, 4, false⟩] ∧
  ∀ (s : State) (address : Word) (m : Byte), address = 0x0100#16 + zext (s.sp + 1#8) → m = s.mem.read address →
    exec .pla s = .next { s.spent 4 [.read address m] with
      sp := s.sp + 1#8, a := m, n := isNegative m, z := isZero m } ∧
    exec .plp s = .next { s.spent 4 [.read address m] with
      sp := s.sp + 1#8, n := m.getLsbD 7, v := m.getLsbD 6, d := m.getLsbD 3, i := m.getLsbD 2, z := m.getLsbD 1,
      c := m.getLsbD 0 } ∧
    ∀ r : InterruptInputs, s.inputs = some r →
      ∃ t, exec .plp s = .next t ∧ interruptDue t = (r.nmiDue || (r.irq && !m.getLsbD 2))

/-- The round trips of R138 and R139: PHA then PLA restores A and SP; PHP then PLP restores the six flags and SP; neither
changes X, Y or any byte of memory but the one pushed. -/
def Obligations.PushThenPullRestores : Prop :=
  ∀ s : State,
    (∃ t u, exec .pha s = .next t ∧ exec .pla t = .next u ∧ u.a = s.a ∧ u.sp = s.sp ∧ u.x = s.x ∧ u.y = s.y ∧
      u.n = isNegative s.a ∧ u.z = isZero s.a ∧ storesOnly (stackAddress s.sp) s.a s u) ∧
    (∃ t u, exec .php s = .next t ∧ exec .plp t = .next u ∧ (∀ f, u.flag f = s.flag f) ∧ u.sp = s.sp ∧ u.a = s.a ∧
      u.x = s.x ∧ u.y = s.y ∧ storesOnly (stackAddress s.sp) (s.pByte true) s u)

/-! ### Logic, arithmetic, compare (R150 to R163) -/

/-- AND, ORA, EOR (R152 to R154): the opcodes, and for every form the bitwise result in A with N and Z, and nothing else but
the cost. -/
def Obligations.LogicCombinesAccumulatorAndOperand : Prop :=
  encodingsOf .AND = [⟨0x21#8, .INDX, 2, 6, false⟩, ⟨0x25#8, .ZP, 2, 3, false⟩, ⟨0x29#8, .IMM, 2, 2, false⟩,
      ⟨0x2D#8, .ABS, 3, 4, false⟩, ⟨0x31#8, .INDY, 2, 5, true⟩, ⟨0x35#8, .ZPX, 2, 4, false⟩,
      ⟨0x39#8, .ABSY, 3, 4, true⟩, ⟨0x3D#8, .ABSX, 3, 4, true⟩] ∧
  encodingsOf .ORA = [⟨0x01#8, .INDX, 2, 6, false⟩, ⟨0x05#8, .ZP, 2, 3, false⟩, ⟨0x09#8, .IMM, 2, 2, false⟩,
      ⟨0x0D#8, .ABS, 3, 4, false⟩, ⟨0x11#8, .INDY, 2, 5, true⟩, ⟨0x15#8, .ZPX, 2, 4, false⟩,
      ⟨0x19#8, .ABSY, 3, 4, true⟩, ⟨0x1D#8, .ABSX, 3, 4, true⟩] ∧
  encodingsOf .EOR = [⟨0x41#8, .INDX, 2, 6, false⟩, ⟨0x45#8, .ZP, 2, 3, false⟩, ⟨0x49#8, .IMM, 2, 2, false⟩,
      ⟨0x4D#8, .ABS, 3, 4, false⟩, ⟨0x51#8, .INDY, 2, 5, true⟩, ⟨0x55#8, .ZPX, 2, 4, false⟩,
      ⟨0x59#8, .ABSY, 3, 4, true⟩, ⟨0x5D#8, .ABSX, 3, 4, true⟩] ∧
  ∀ (i : Instr) (s : State) (r : Byte),
    (i.operation = .AND ∧ r = s.a &&& operandOf i s) ∨ (i.operation = .ORA ∧ r = s.a ||| operandOf i s) ∨
      (i.operation = .EOR ∧ r = s.a ^^^ operandOf i s) →
    exec i s = .next { s.spent (costOf i s) (operandReads i s) with a := r, n := isNegative r, z := isZero r }

/-- BIT (R155): the opcodes; N and V are bits 7 and 6 of the memory byte, Z says whether its AND with A is zero; A and the
rest are unchanged. -/
def Obligations.BitTestsTheMemoryByte : Prop :=
  encodingsOf .BIT = [⟨0x24#8, .ZP, 2, 3, false⟩, ⟨0x2C#8, .ABS, 3, 4, false⟩] ∧
  ∀ (i : Instr) (s : State), i.operation = .BIT →
    exec i s = .next { s.spent (costOf i s) (operandReads i s) with
      n := (operandOf i s).getLsbD 7, v := (operandOf i s).getLsbD 6, z := isZero (s.a &&& operandOf i s) }

/-- R150, R151: binary addition with carry: the result modulo 256, the carry out of 8 bits, and the overflow, which is a sign
that differs from two equal operand signs, that is a signed sum outside -128 to 127; and `Overflow` for any three bytes. -/
def Obligations.BinaryAddIsExact : Prop :=
  ∀ (a m : Byte) (c : Bool),
    (addBinary a m c).value.toNat = (a.toNat + m.toNat + c.toNat) % 256 ∧
    ((addBinary a m c).c = true ↔ 256 ≤ a.toNat + m.toNat + c.toNat) ∧
    (addBinary a m c).v = (((a ^^^ (addBinary a m c).value) &&& (m ^^^ (addBinary a m c).value) &&& 0x80#8) != 0#8) ∧
    ((addBinary a m c).v = true ↔ a.toInt + m.toInt + c.toNat < -128 ∨ 127 < a.toInt + m.toInt + c.toNat) ∧
    (addBinary a m c).n = isNegative (addBinary a m c).value ∧ (addBinary a m c).z = isZero (addBinary a m c).value ∧
    ∀ r : Byte, overflow a m r = (((a ^^^ r) &&& (m ^^^ r) &&& 0x80#8) != 0#8) ∧
      (overflow a m r = true ↔ isNegative a = isNegative m ∧ isNegative r ≠ isNegative a)

/-- ADC (R156): the opcodes; for every form A, N, V, Z, C become those of `AddBinary(A, m, C)` when D = 0 and of
`AddDecimal(A, m, C)` when D = 1, the cost does not depend on D, and nothing else changes. -/
def Obligations.AdcAddsInTheModeOfD : Prop :=
  encodingsOf .ADC = [⟨0x61#8, .INDX, 2, 6, false⟩, ⟨0x65#8, .ZP, 2, 3, false⟩, ⟨0x69#8, .IMM, 2, 2, false⟩,
      ⟨0x6D#8, .ABS, 3, 4, false⟩, ⟨0x71#8, .INDY, 2, 5, true⟩, ⟨0x75#8, .ZPX, 2, 4, false⟩,
      ⟨0x79#8, .ABSY, 3, 4, true⟩, ⟨0x7D#8, .ABSX, 3, 4, true⟩] ∧
  ∀ (i : Instr) (s : State) (r : AluResult), i.operation = .ADC →
    r = (if s.d then addDecimal s.a (operandOf i s) s.c else addBinary s.a (operandOf i s) s.c) →
    exec i s = .next { s.spent (costOf i s) (operandReads i s) with a := r.value, n := r.n, v := r.v, z := r.z, c := r.c }

/-- SBC (R157): the opcodes; in binary the result is `A - m - (1 - C)` modulo 256, C says no borrow, V a signed overflow, N
and Z are the result's; in decimal A, N, V, Z, C are those of `SubDecimal(A, m, C)`; nothing else changes. -/
def Obligations.SbcSubtractsInTheModeOfD : Prop :=
  encodingsOf .SBC = [⟨0xE1#8, .INDX, 2, 6, false⟩, ⟨0xE5#8, .ZP, 2, 3, false⟩, ⟨0xE9#8, .IMM, 2, 2, false⟩,
      ⟨0xED#8, .ABS, 3, 4, false⟩, ⟨0xF1#8, .INDY, 2, 5, true⟩, ⟨0xF5#8, .ZPX, 2, 4, false⟩,
      ⟨0xF9#8, .ABSY, 3, 4, true⟩, ⟨0xFD#8, .ABSX, 3, 4, true⟩] ∧
  (∀ (i : Instr) (s : State), i.operation = .SBC → s.d = false → ∃ t, exec i s = .next t ∧
    (t.a.toNat : Int) = ((s.a.toNat : Int) - (operandOf i s).toNat - (1 - s.c.toNat)) % 256 ∧
    (t.c = true ↔ 0 ≤ (s.a.toNat : Int) - (operandOf i s).toNat - (1 - s.c.toNat)) ∧
    t.v = (((s.a ^^^ t.a) &&& (s.a ^^^ operandOf i s) &&& 0x80#8) != 0#8) ∧
    (t.v = true ↔ s.a.toInt - (operandOf i s).toInt - (1 - s.c.toNat) < -128 ∨
      127 < s.a.toInt - (operandOf i s).toInt - (1 - s.c.toNat)) ∧
    t = { s.spent (costOf i s) (operandReads i s) with a := t.a, n := isNegative t.a, v := t.v, z := isZero t.a, c := t.c }) ∧
  (∀ (i : Instr) (s : State), i.operation = .SBC → s.d = true →
    exec i s = .next { s.spent (costOf i s) (operandReads i s) with
      a := (subDecimal s.a (operandOf i s) s.c).value, n := (subDecimal s.a (operandOf i s) s.c).n,
      v := (subDecimal s.a (operandOf i s) s.c).v, z := (subDecimal s.a (operandOf i s) s.c).z,
      c := (subDecimal s.a (operandOf i s) s.c).c })

/-- R160: the pseudocode of `AddDecimal`, for every two bytes; and for valid BCD operands the result is the BCD of the sum
modulo 100, with C set from 100 on. -/
def Obligations.DecimalAddIsBcdAddition : Prop :=
  (∀ (a m : Byte) (c : Bool) (al0 al t u : Nat),
    al0 = (a &&& 0x0F#8).toNat + (m &&& 0x0F#8).toNat + c.toNat →
    al = (if 0x0A ≤ al0 then ((al0 + 0x06) &&& 0x0F) + 0x10 else al0) →
    t = (a &&& 0xF0#8).toNat + (m &&& 0xF0#8).toNat + al → u = (if 0xA0 ≤ t then t + 0x60 else t) →
    (addDecimal a m c).value = BitVec.ofNat 8 u ∧ (addDecimal a m c).n = Nat.testBit t 7 ∧
    (addDecimal a m c).v = ((((a ^^^ BitVec.ofNat 8 t) &&& (m ^^^ BitVec.ofNat 8 t)) &&& 0x80#8) != 0#8) ∧
    (addDecimal a m c).z = decide ((a.toNat + m.toNat + c.toNat) % 256 = 0) ∧
    (addDecimal a m c).c = decide (0x100 ≤ u)) ∧
  (∀ (a1 a0 m1 m0 : Nat) (c : Bool), a1 < 10 → a0 < 10 → m1 < 10 → m0 < 10 →
    ∀ total, total = 10 * a1 + a0 + (10 * m1 + m0) + c.toNat →
    (addDecimal (BitVec.ofNat 8 (16 * a1 + a0)) (BitVec.ofNat 8 (16 * m1 + m0)) c).value =
        BitVec.ofNat 8 (16 * (total % 100 / 10) + total % 10) ∧
    (addDecimal (BitVec.ofNat 8 (16 * a1 + a0)) (BitVec.ofNat 8 (16 * m1 + m0)) c).c = decide (100 ≤ total))

/-- R161: the pseudocode of `SubDecimal`, for every two bytes, with the flags of the binary subtraction; and for valid BCD
operands the result is the BCD of the difference modulo 100, with C set when there is no borrow. -/
def Obligations.DecimalSubtractIsBcdSubtraction : Prop :=
  (∀ (a m : Byte) (c : Bool) (al0 al t u : Int),
    al0 = ((a &&& 0x0F#8).toNat : Int) - (m &&& 0x0F#8).toNat + c.toNat - 1 →
    al = (if al0 < 0 then (al0 - 0x06) % 16 - 0x10 else al0) →
    t = ((a &&& 0xF0#8).toNat : Int) - (m &&& 0xF0#8).toNat + al → u = (if t < 0 then t - 0x60 else t) →
    subDecimal a m c = { addBinary a (~~~m) c with value := BitVec.ofInt 8 u }) ∧
  (∀ (a1 a0 m1 m0 : Nat) (c : Bool), a1 < 10 → a0 < 10 → m1 < 10 → m0 < 10 →
    ∀ diff : Int, diff = 10 * (a1 : Int) + a0 - (10 * (m1 : Int) + m0) - (1 - c.toNat) →
    (subDecimal (BitVec.ofNat 8 (16 * a1 + a0)) (BitVec.ofNat 8 (16 * m1 + m0)) c).value =
        BitVec.ofInt 8 (16 * (diff % 100 / 10) + diff % 10) ∧
    (subDecimal (BitVec.ofNat 8 (16 * a1 + a0)) (BitVec.ofNat 8 (16 * m1 + m0)) c).c = decide (0 ≤ diff))

/-- CMP, CPX, CPY (R158, R159, R162, R163): the opcodes; C is an unsigned not-below, Z equality, N bit 7 of the difference
modulo 256; V, D, the carry before and the registers play no part, and nothing else changes. -/
def Obligations.ComparesSetOnlyCarryZeroNegative : Prop :=
  encodingsOf .CMP = [⟨0xC1#8, .INDX, 2, 6, false⟩, ⟨0xC5#8, .ZP, 2, 3, false⟩, ⟨0xC9#8, .IMM, 2, 2, false⟩,
      ⟨0xCD#8, .ABS, 3, 4, false⟩, ⟨0xD1#8, .INDY, 2, 5, true⟩, ⟨0xD5#8, .ZPX, 2, 4, false⟩,
      ⟨0xD9#8, .ABSY, 3, 4, true⟩, ⟨0xDD#8, .ABSX, 3, 4, true⟩] ∧
  encodingsOf .CPX = [⟨0xE0#8, .IMM, 2, 2, false⟩, ⟨0xE4#8, .ZP, 2, 3, false⟩, ⟨0xEC#8, .ABS, 3, 4, false⟩] ∧
  encodingsOf .CPY = [⟨0xC0#8, .IMM, 2, 2, false⟩, ⟨0xC4#8, .ZP, 2, 3, false⟩, ⟨0xCC#8, .ABS, 3, 4, false⟩] ∧
  ∀ (i : Instr) (s : State) (r : Byte),
    (i.operation = .CMP ∧ r = s.a) ∨ (i.operation = .CPX ∧ r = s.x) ∨ (i.operation = .CPY ∧ r = s.y) →
    exec i s = .next { s.spent (costOf i s) (operandReads i s) with
      n := decide (128 ≤ (r.toNat + 256 - (operandOf i s).toNat) % 256)
      z := decide (r.toNat = (operandOf i s).toNat)
      c := decide ((operandOf i s).toNat ≤ r.toNat) }

/-! ### Increments, decrements, shifts (R170 to R179) -/

/-- INC and DEC (R170, R171): the opcodes; the byte at the effective address plus or minus 1 modulo 256, N and Z from it, one
read and then one write, every other byte as before, and nothing else but the cost. -/
def Obligations.IncDecStepTheMemoryByte : Prop :=
  encodingsOf .INC = [⟨0xE6#8, .ZP, 2, 5, false⟩, ⟨0xEE#8, .ABS, 3, 6, false⟩, ⟨0xF6#8, .ZPX, 2, 6, false⟩,
      ⟨0xFE#8, .ABSX, 3, 7, false⟩] ∧
  encodingsOf .DEC = [⟨0xC6#8, .ZP, 2, 5, false⟩, ⟨0xCE#8, .ABS, 3, 6, false⟩, ⟨0xD6#8, .ZPX, 2, 6, false⟩,
      ⟨0xDE#8, .ABSX, 3, 7, false⟩] ∧
  ∀ (i : Instr) (s : State) (r : Byte),
    (i.operation = .INC ∧ r.toNat = ((operandOf i s).toNat + 1) % 256) ∨
      (i.operation = .DEC ∧ r.toNat = ((operandOf i s).toNat + 255) % 256) →
    ∃ t, exec i s = .next t ∧ storesOnly (eaOf i s) r s t ∧
      t = { s.spent (baseCyclesOf i) (operandReads i s ++ [.write (eaOf i s) r]) with
        mem := t.mem, n := isNegative r, z := isZero r }

/-- INX, INY, DEX, DEY (R172 to R175): the opcodes; the register plus or minus 1 modulo 256, N and Z from it, 2 cycles, and
nothing else. -/
def Obligations.IndexRegistersStepByOne : Prop :=
  encodingsOf .INX = [⟨0xE8#8, .IMP, 1, 2, false⟩] ∧
  encodingsOf .INY = [⟨0xC8#8, .IMP, 1, 2, false⟩] ∧
  encodingsOf .DEX = [⟨0xCA#8, .IMP, 1, 2, false⟩] ∧
  encodingsOf .DEY = [⟨0x88#8, .IMP, 1, 2, false⟩] ∧
  ∀ (s : State) (r : Byte),
    (r.toNat = (s.x.toNat + 1) % 256 →
      exec .inx s = .next { s.spent 2 [] with x := r, n := isNegative r, z := isZero r }) ∧
    (r.toNat = (s.y.toNat + 1) % 256 →
      exec .iny s = .next { s.spent 2 [] with y := r, n := isNegative r, z := isZero r }) ∧
    (r.toNat = (s.x.toNat + 255) % 256 →
      exec .dex s = .next { s.spent 2 [] with x := r, n := isNegative r, z := isZero r }) ∧
    (r.toNat = (s.y.toNat + 255) % 256 →
      exec .dey s = .next { s.spent 2 [] with y := r, n := isNegative r, z := isZero r })

/-- ASL, LSR, ROL, ROR (R176 to R179): the opcodes; the operand doubled or halved, the carry before entering ROL at bit 0
and ROR at bit 7, C the bit shifted out, N and Z from the result; the result goes to A in the accumulator form, else to the
effective address by one read and one write, and nothing else changes but the cost. -/
def Obligations.ShiftsMoveOneBitThroughCarry : Prop :=
  encodingsOf .ASL = [⟨0x06#8, .ZP, 2, 5, false⟩, ⟨0x0A#8, .ACC, 1, 2, false⟩, ⟨0x0E#8, .ABS, 3, 6, false⟩,
      ⟨0x16#8, .ZPX, 2, 6, false⟩, ⟨0x1E#8, .ABSX, 3, 7, false⟩] ∧
  encodingsOf .LSR = [⟨0x46#8, .ZP, 2, 5, false⟩, ⟨0x4A#8, .ACC, 1, 2, false⟩, ⟨0x4E#8, .ABS, 3, 6, false⟩,
      ⟨0x56#8, .ZPX, 2, 6, false⟩, ⟨0x5E#8, .ABSX, 3, 7, false⟩] ∧
  encodingsOf .ROL = [⟨0x26#8, .ZP, 2, 5, false⟩, ⟨0x2A#8, .ACC, 1, 2, false⟩, ⟨0x2E#8, .ABS, 3, 6, false⟩,
      ⟨0x36#8, .ZPX, 2, 6, false⟩, ⟨0x3E#8, .ABSX, 3, 7, false⟩] ∧
  encodingsOf .ROR = [⟨0x66#8, .ZP, 2, 5, false⟩, ⟨0x6A#8, .ACC, 1, 2, false⟩, ⟨0x6E#8, .ABS, 3, 6, false⟩,
      ⟨0x76#8, .ZPX, 2, 6, false⟩, ⟨0x7E#8, .ABSX, 3, 7, false⟩] ∧
  ∀ (i : Instr) (s : State) (r : Byte) (out : Bool),
    (i.operation = .ASL ∧ r = BitVec.ofNat 8 (2 * (operandOf i s).toNat) ∧ out = (operandOf i s).getLsbD 7) ∨
    (i.operation = .LSR ∧ r = BitVec.ofNat 8 ((operandOf i s).toNat / 2) ∧ out = (operandOf i s).getLsbD 0) ∨
    (i.operation = .ROL ∧ r = BitVec.ofNat 8 (2 * (operandOf i s).toNat + s.c.toNat) ∧ out = (operandOf i s).getLsbD 7) ∨
    (i.operation = .ROR ∧ r = BitVec.ofNat 8 ((operandOf i s).toNat / 2 + 128 * s.c.toNat) ∧
      out = (operandOf i s).getLsbD 0) →
    (i.mode = .ACC →
      exec i s = .next { s.spent 2 [] with a := r, n := isNegative r, z := isZero r, c := out }) ∧
    (i.mode ≠ .ACC → ∃ t, exec i s = .next t ∧ storesOnly (eaOf i s) r s t ∧
      t = { s.spent (baseCyclesOf i) (operandReads i s ++ [.write (eaOf i s) r]) with
        mem := t.mem, n := isNegative r, z := isZero r, c := out })

/-! ### Control flow (R190 to R201) -/

/-- JMP (R190): the opcodes; the program counter becomes the operand, or the word read through the pointer, whose second byte
comes from the pointer's own page; nothing else changes but the cost. -/
def Obligations.JmpLoadsTheProgramCounter : Prop :=
  encodingsOf .JMP = [⟨0x4C#8, .ABS, 3, 3, false⟩, ⟨0x6C#8, .IND, 3, 5, false⟩] ∧
  ∀ (s : State) (w p p' : Word),
    exec (.jmpAbs w) s = .next { s.spent 3 [] with pc := w } ∧
    (p'.toNat = p.toNat / 256 * 256 + (p.toNat % 256 + 1) % 256 →
      exec (.jmpInd p) s = .next { s.spent 5 [.read p (s.mem.read p), .read p' (s.mem.read p')] with
        pc := BitVec.ofNat 16 ((s.mem.read p').toNat * 256 + (s.mem.read p).toNat) })

/-- JSR (R191): the opcode; the address of the instruction's last byte is pushed, its high byte at 0x0100 + SP and its low
byte at 0x0100 + SP - 1 (modulo 256), SP goes down by 2, and the program counter becomes the operand. -/
def Obligations.JsrPushesTheReturnAddress : Prop :=
  encodingsOf .JSR = [⟨0x20#8, .ABS, 3, 6, false⟩] ∧
  ∀ (s : State) (w : Word), ∃ t, exec (.jsr w) s = .next t ∧
    (∀ address : Word, t.mem.read address =
      if address = 0x0100#16 + zext s.sp then BitVec.ofNat 8 ((s.pc - 1#16).toNat / 256)
      else if address = 0x0100#16 + zext (s.sp - 1#8) then BitVec.ofNat 8 ((s.pc - 1#16).toNat % 256)
      else s.mem.read address) ∧
    t = { s.spent 6 [.write (0x0100#16 + zext s.sp) (BitVec.ofNat 8 ((s.pc - 1#16).toNat / 256)),
        .write (0x0100#16 + zext (s.sp - 1#8)) (BitVec.ofNat 8 ((s.pc - 1#16).toNat % 256))] with
      sp := s.sp - 2#8, pc := w, mem := t.mem }

/-- RTS (R192): the opcode; the program counter becomes the word pulled, the low byte first, plus 1 modulo 65536; SP goes up
by 2 and nothing else changes but the cost. -/
def Obligations.RtsReturnsBehindThePulledAddress : Prop :=
  encodingsOf .RTS = [⟨0x60#8, .IMP, 1, 6, false⟩] ∧
  ∀ (s : State) (lo hi : Byte),
    lo = s.mem.read (0x0100#16 + zext (s.sp + 1#8)) → hi = s.mem.read (0x0100#16 + zext (s.sp + 2#8)) →
    exec .rts s = .next { s.spent 6 [.read (0x0100#16 + zext (s.sp + 1#8)) lo, .read (0x0100#16 + zext (s.sp + 2#8)) hi] with
      sp := s.sp + 2#8, pc := BitVec.ofNat 16 (hi.toNat * 256 + lo.toNat + 1) }

/-- R192: an RTS with the stack pointer and the two stack bytes that a JSR left returns to the instruction after the JSR and
restores SP, whatever the subroutine did to the rest. -/
def Obligations.RtsUndoesJsr : Prop :=
  ∀ (s t u : State) (w : Word), exec (.jsr w) s = .next t → u.sp = t.sp →
    (∀ address : Word, address = stackAddress s.sp ∨ address = stackAddress (s.sp - 1#8) →
      u.mem.read address = t.mem.read address) →
    ∃ r, exec .rts u = .next r ∧ r.pc = s.pc ∧ r.sp = s.sp

/-- The eight branches (R193 to R201): the opcodes; when the flag has the value tested, the program counter moves by the
signed offset from the next instruction, modulo 65536, at 3 cycles, or 4 into another page; else 2 cycles; nothing else
changes. -/
def Obligations.BranchesTestOneFlag : Prop :=
  encodingsOf .BPL = [⟨0x10#8, .REL, 2, 2, false⟩] ∧
  encodingsOf .BMI = [⟨0x30#8, .REL, 2, 2, false⟩] ∧
  encodingsOf .BVC = [⟨0x50#8, .REL, 2, 2, false⟩] ∧
  encodingsOf .BVS = [⟨0x70#8, .REL, 2, 2, false⟩] ∧
  encodingsOf .BCC = [⟨0x90#8, .REL, 2, 2, false⟩] ∧
  encodingsOf .BCS = [⟨0xB0#8, .REL, 2, 2, false⟩] ∧
  encodingsOf .BNE = [⟨0xD0#8, .REL, 2, 2, false⟩] ∧
  encodingsOf .BEQ = [⟨0xF0#8, .REL, 2, 2, false⟩] ∧
  ∀ (s : State) (o : Byte) (i : Instr) (cond : Bool) (target : Word),
    (i, cond) ∈ [(.bpl o, !s.n), (.bmi o, s.n), (.bvc o, !s.v), (.bvs o, s.v), (.bcc o, !s.c), (.bcs o, s.c),
      (.bne o, !s.z), (.beq o, s.z)] →
    target = BitVec.ofInt 16 ((s.pc.toNat : Int) + o.toInt) →
    exec i s = .next (if cond
      then { s.spent (if target.toNat / 256 = s.pc.toNat / 256 then 3 else 4) [] with pc := target }
      else s.spent 2 [])

/-! ### Flags and system (R210 to R219), interrupts (R233 to R239) -/

/-- CLC, SEC, CLI, SEI, CLD, SED, CLV, NOP (R210 to R217): the opcodes; one flag takes its value, or nothing does; 2 cycles,
and nothing else. After CLI and SEI the interrupt check of the next step uses the new I: this clause is derived from R212 and
R239, over the inputs as the model holds them (log 5). -/
def Obligations.FlagInstructionsWriteOneFlag : Prop :=
  encodingsOf .CLC = [⟨0x18#8, .IMP, 1, 2, false⟩] ∧
  encodingsOf .SEC = [⟨0x38#8, .IMP, 1, 2, false⟩] ∧
  encodingsOf .CLI = [⟨0x58#8, .IMP, 1, 2, false⟩] ∧
  encodingsOf .SEI = [⟨0x78#8, .IMP, 1, 2, false⟩] ∧
  encodingsOf .CLD = [⟨0xD8#8, .IMP, 1, 2, false⟩] ∧
  encodingsOf .SED = [⟨0xF8#8, .IMP, 1, 2, false⟩] ∧
  encodingsOf .CLV = [⟨0xB8#8, .IMP, 1, 2, false⟩] ∧
  encodingsOf .NOP = [⟨0xEA#8, .IMP, 1, 2, false⟩] ∧
  ∀ s : State,
    exec .clc s = .next { s.spent 2 [] with c := false } ∧ exec .sec s = .next { s.spent 2 [] with c := true } ∧
    exec .cli s = .next { s.spent 2 [] with i := false } ∧ exec .sei s = .next { s.spent 2 [] with i := true } ∧
    exec .cld s = .next { s.spent 2 [] with d := false } ∧ exec .sed s = .next { s.spent 2 [] with d := true } ∧
    exec .clv s = .next { s.spent 2 [] with v := false } ∧ exec .nop s = .next (s.spent 2 []) ∧
    ∀ r : InterruptInputs, s.inputs = some r →
      (∃ t, exec .cli s = .next t ∧ interruptDue t = (r.nmiDue || r.irq)) ∧
      (∃ t, exec .sei s = .next t ∧ interruptDue t = r.nmiDue)

/-- R233: the interrupt sequence stores the program counter, high byte first, and the status byte with bit 4 = `b` and the I
of before, at 0x0100 + SP, SP - 1 and SP - 2 (modulo 256); SP goes down by 3, I is set, the program counter is loaded from the
vector, low byte first; every other byte of memory and everything else is as before. -/
def Obligations.InterruptSequenceSavesThreeBytes : Prop :=
  ∀ (s t : State) (vector : Word) (b : Bool), s.interruptSequence vector b = t →
    (∀ address : Word, t.mem.read address =
      if address = 0x0100#16 + zext s.sp then BitVec.ofNat 8 (s.pc.toNat / 256)
      else if address = 0x0100#16 + zext (s.sp - 1#8) then BitVec.ofNat 8 (s.pc.toNat % 256)
      else if address = 0x0100#16 + zext (s.sp - 2#8) then s.pByte b
      else s.mem.read address) ∧
    t = { s.spent 0 [.write (0x0100#16 + zext s.sp) (BitVec.ofNat 8 (s.pc.toNat / 256)),
        .write (0x0100#16 + zext (s.sp - 1#8)) (BitVec.ofNat 8 (s.pc.toNat % 256)),
        .write (0x0100#16 + zext (s.sp - 2#8)) (s.pByte b),
        .read vector (t.mem.read vector), .read (vector + 1#16) (t.mem.read (vector + 1#16))] with
      sp := s.sp - 3#8, i := true, mem := t.mem
      pc := BitVec.ofNat 16 ((t.mem.read (vector + 1#16)).toNat * 256 + (t.mem.read vector).toNat) }

/-- BRK (R218): the opcode; the address of the opcode plus 2 (one past the program counter here) and the status byte with B = 1
are pushed, I is set, the program counter is loaded from 0xFFFE and 0xFFFF; 7 cycles; the padding byte is not read; every other
byte of memory and everything else is as before. -/
def Obligations.BrkTakesTheInterruptSequence : Prop :=
  encodingsOf .BRK = [⟨0x00#8, .IMP, 1, 7, false⟩] ∧
  ∀ s : State, ∃ t, exec .brk s = .next t ∧
    (∀ address : Word, t.mem.read address =
      if address = 0x0100#16 + zext s.sp then BitVec.ofNat 8 ((s.pc + 1#16).toNat / 256)
      else if address = 0x0100#16 + zext (s.sp - 1#8) then BitVec.ofNat 8 ((s.pc + 1#16).toNat % 256)
      else if address = 0x0100#16 + zext (s.sp - 2#8) then s.pByte true
      else s.mem.read address) ∧
    t = { s.spent 7 [.write (0x0100#16 + zext s.sp) (BitVec.ofNat 8 ((s.pc + 1#16).toNat / 256)),
        .write (0x0100#16 + zext (s.sp - 1#8)) (BitVec.ofNat 8 ((s.pc + 1#16).toNat % 256)),
        .write (0x0100#16 + zext (s.sp - 2#8)) (s.pByte true),
        .read 0xFFFE#16 (s.mem.read 0xFFFE#16), .read 0xFFFF#16 (s.mem.read 0xFFFF#16)] with
      sp := s.sp - 3#8, i := true, mem := t.mem
      pc := BitVec.ofNat 16 ((s.mem.read 0xFFFF#16).toNat * 256 + (s.mem.read 0xFFFE#16).toNat) }

/-- RTI (R219): the opcode; the status byte and then the return address, low byte first, are pulled; the six flags are loaded
with bits 5 and 4 dropped, nothing is added to the address; SP goes up by 3, 6 cycles, and nothing else changes. -/
def Obligations.RtiRestoresFlagsAndProgramCounter : Prop :=
  encodingsOf .RTI = [⟨0x40#8, .IMP, 1, 6, false⟩] ∧
  ∀ (s : State) (p lo hi : Byte), p = s.mem.read (0x0100#16 + zext (s.sp + 1#8)) →
    lo = s.mem.read (0x0100#16 + zext (s.sp + 2#8)) → hi = s.mem.read (0x0100#16 + zext (s.sp + 3#8)) →
    exec .rti s = .next { s.spent 6 [.read (0x0100#16 + zext (s.sp + 1#8)) p, .read (0x0100#16 + zext (s.sp + 2#8)) lo,
        .read (0x0100#16 + zext (s.sp + 3#8)) hi] with
      sp := s.sp + 3#8, pc := BitVec.ofNat 16 (hi.toNat * 256 + lo.toNat)
      n := p.getLsbD 7, v := p.getLsbD 6, d := p.getLsbD 3, i := p.getLsbD 2, z := p.getLsbD 1, c := p.getLsbD 0 }

/-- R242: an RTI with the stack pointer and the three stack bytes that an interrupt sequence left continues at the saved
address with the six flags and SP of before, whatever the handler did to the rest; so after BRK, at the BRK's address plus
2. -/
def Obligations.RtiUndoesTheInterruptSequence : Prop :=
  ∀ (s u : State) (vector : Word) (b : Bool), u.sp = (s.interruptSequence vector b).sp →
    (∀ address : Word, address ∈ [stackAddress s.sp, stackAddress (s.sp - 1#8), stackAddress (s.sp - 2#8)] →
      u.mem.read address = (s.interruptSequence vector b).mem.read address) →
    ∃ r, exec .rti u = .next r ∧ r.pc = s.pc ∧ r.sp = s.sp ∧ (∀ f, r.flag f = s.flag f) ∧
      r.a = u.a ∧ r.x = u.x ∧ r.y = u.y ∧ (∀ address, r.mem.read address = u.mem.read address)

/-- R237 to R239, R241, where the inputs are present: at the start of a step a pending NMI is taken first, through 0xFFFA and
whatever I is, and clears the latch; else an asserted `irq` is taken through 0xFFFE if I = 0; else nothing is; each sequence
pushes the status byte with B = 0 and adds 7 cycles. The model's reading (log 5): a rising edge of `nmi` against the level at
the last boundary is serviced at the boundary where it is first seen (DEDUCED), and the levels presented are kept for the
next step (DESIGN CHOICE). -/
def Obligations.InterruptRequestsAreServicedInPriority : Prop :=
  ∀ (s s' : State) (irq nmi nmiLast pending : Bool), s.inputs = some ⟨irq, nmi, nmiLast, pending⟩ →
    s' = { s with inputs := some ⟨irq, nmi, nmi, false⟩ } →
    (pending = true ∨ (nmi = true ∧ nmiLast = false) → s.serviceInterrupt = (s'.interruptSequence 0xFFFA#16 false).spent 7 []) ∧
    (pending = false → (nmi = false ∨ nmiLast = true) → irq = true → s.i = false →
      s.serviceInterrupt = (s'.interruptSequence 0xFFFE#16 false).spent 7 []) ∧
    (pending = false → (nmi = false ∨ nmiLast = true) → (irq = false ∨ s.i = true) → s.serviceInterrupt = s')

/-- R236, where the inputs are absent: no step changes that, no request is ever serviced, and I is a stored bit that only PHP
and BRK read: every other instruction behaves alike whatever I holds. -/
def Obligations.WithoutInputsInterruptDisableIsInert : Prop :=
  (∀ s : State, s.inputs = none → s.serviceInterrupt = s ∧ (∀ irq nmi, s.present irq nmi = s) ∧
    ∀ t, step s = .next t → t.inputs = none) ∧
  (∀ (i : Instr) (s : State) (b : Bool), i.operation ≠ .PHP → i.operation ≠ .BRK →
    ∃ t, exec i s = .next t ∧
      exec i { s with i := b } = .next (if StatusFlag.I ∈ flagsWritten i.operation then t else { t with i := b }))
end

