-- ==== Sys2Proof/Laws/Bytes.lean ====
section
/-!
SUPPORT. The byte-order helpers as numbers: `joinBytes`, `loByte`, `hiByte`, `zext`, `sext` (00_scope.md R5).
-/

namespace Sys2Proof

@[simp] theorem joinBytes_toNat (hi lo : Byte) : (joinBytes hi lo).toNat = hi.toNat * 256 + lo.toNat := by
  have h1 := hi.isLt
  have h2 := lo.isLt
  rw [joinBytes, BitVec.toNat_ofNat, Nat.mod_eq_of_lt (by omega)]

@[simp] theorem loByte_toNat (w : Word) : (loByte w).toNat = w.toNat % 256 := by
  rw [loByte, BitVec.toNat_ofNat]

@[simp] theorem hiByte_toNat (w : Word) : (hiByte w).toNat = w.toNat / 256 := by
  have h := w.isLt
  rw [hiByte, BitVec.toNat_ofNat, Nat.mod_eq_of_lt (by omega)]

@[simp] theorem zext_toNat (b : Byte) : (zext b).toNat = b.toNat := by
  have h := b.isLt
  rw [zext, BitVec.toNat_setWidth, Nat.mod_eq_of_lt (by omega)]

/-- A word is its two bytes joined. -/
@[simp] theorem joinBytes_hi_lo (w : Word) : joinBytes (hiByte w) (loByte w) = w := by
  apply BitVec.eq_of_toNat_eq
  simp only [joinBytes_toNat, hiByte_toNat, loByte_toNat]
  omega

@[simp] theorem loByte_joinBytes (hi lo : Byte) : loByte (joinBytes hi lo) = lo := by
  have h := lo.isLt
  apply BitVec.eq_of_toNat_eq
  simp only [joinBytes_toNat, loByte_toNat]
  omega

@[simp] theorem hiByte_joinBytes (hi lo : Byte) : hiByte (joinBytes hi lo) = hi := by
  have h := lo.isLt
  apply BitVec.eq_of_toNat_eq
  simp only [joinBytes_toNat, hiByte_toNat]
  omega

/-- The sign extension of a branch offset is its signed value modulo 65536. -/
theorem sext_toNat (o : Byte) : (sext o).toNat = if o.toNat < 128 then o.toNat else 65280 + o.toNat := by
  have h := o.isLt
  rw [sext, BitVec.toNat_signExtend, BitVec.msb_eq_decide, BitVec.toNat_setWidth, Nat.mod_eq_of_lt (by omega)]
  by_cases hlt : o.toNat < 128
  · simp [hlt]
  · have : 128 ≤ o.toNat := by omega
    simp [hlt, this, Nat.add_comm]

/-- `sext_8` of a byte as an integer (R5). -/
theorem toInt_byte (o : Byte) : o.toInt = if o.toNat < 128 then (o.toNat : Int) else (o.toNat : Int) - 256 := by
  rw [BitVec.toInt_eq_toNat_cond]
  split <;> split <;> omega

/-- A branch target as an integer: the signed offset added modulo 65536 (R193). -/
theorem add_sext_toNat (w : Word) (o : Byte) : ((w + sext o).toNat : Int) = ((w.toNat : Int) + o.toInt) % 65536 := by
  have hw := w.isLt
  have ho := o.isLt
  rw [BitVec.toNat_add, sext_toNat, toInt_byte]
  split <;> omega

end Sys2Proof
end

