-- ==== Sys2Proof/Laws/Memory.lean ====
section
/-!
SUPPORT. The laws of the flat memory: read after write for every list, the canonical form kept by every operation, and
that two canonical memories with the same bytes are the same list.
-/

namespace Sys2Proof.Machine

/-! ### Read after write -/

theorem Memory.readNat_erase_same (m : Memory) (n : Nat) : (m.erase n).readNat n = Config.unlistedByte := by
  induction m with
  | nil => rfl
  | cons e rest ih =>
    obtain ⟨k, v⟩ := e
    by_cases h : k = n <;> simp [Memory.erase, Memory.readNat, h, ih]

theorem Memory.readNat_erase_other (m : Memory) {n k : Nat} (h : k ≠ n) : (m.erase n).readNat k = m.readNat k := by
  induction m with
  | nil => rfl
  | cons e rest ih =>
    obtain ⟨j, v⟩ := e
    by_cases hj : j = n
    · simp [Memory.erase, Memory.readNat, hj, ih, Ne.symm h]
    · simp [Memory.erase, Memory.readNat, hj, ih]

theorem Memory.readNat_insert_same (m : Memory) (n : Nat) (b : Byte) :
    ((m.erase n).insert n b).readNat n = b := by
  induction m with
  | nil => simp [Memory.erase, Memory.insert, Memory.readNat]
  | cons e rest ih =>
    obtain ⟨k, v⟩ := e
    by_cases hk : k = n
    · simpa [Memory.erase, hk] using ih
    · by_cases hlt : n < k
      · simp [Memory.erase, Memory.insert, Memory.readNat, hk, hlt]
      · simp [Memory.erase, Memory.insert, Memory.readNat, hk, hlt, ih]

theorem Memory.readNat_insert_other (m : Memory) {n k : Nat} (b : Byte) (h : k ≠ n) :
    (m.insert n b).readNat k = m.readNat k := by
  induction m with
  | nil => simp [Memory.insert, Memory.readNat, Ne.symm h]
  | cons e rest ih =>
    obtain ⟨j, v⟩ := e
    by_cases hlt : n < j
    · simp [Memory.insert, Memory.readNat, hlt, Ne.symm h]
    · simp [Memory.insert, Memory.readNat, hlt, ih]

theorem Memory.readNat_writeNat_same (m : Memory) (n : Nat) (b : Byte) : (m.writeNat n b).readNat n = b := by
  unfold Memory.writeNat
  split
  · next h => rw [Memory.readNat_erase_same, h]
  · exact Memory.readNat_insert_same m n b

theorem Memory.readNat_writeNat_other (m : Memory) {n k : Nat} (b : Byte) (h : k ≠ n) :
    (m.writeNat n b).readNat k = m.readNat k := by
  unfold Memory.writeNat
  split
  · exact Memory.readNat_erase_other m h
  · rw [Memory.readNat_insert_other _ b h, Memory.readNat_erase_other m h]

/-- A read after a write to the same address gives the byte written. -/
@[simp] theorem Memory.read_write_same (m : Memory) (address : Word) (b : Byte) :
    (m.write address b).read address = b :=
  Memory.readNat_writeNat_same m _ b

/-- A write leaves every other address as it was. -/
theorem Memory.read_write_other (m : Memory) {address other : Word} (b : Byte) (h : other ≠ address) :
    (m.write address b).read other = m.read other :=
  Memory.readNat_writeNat_other m b (fun e => h (BitVec.eq_of_toNat_eq e))

/-- What a read gives after a write. -/
theorem Memory.read_write (m : Memory) (address other : Word) (b : Byte) :
    (m.write address b).read other = if other = address then b else m.read other := by
  by_cases h : other = address
  · subst h; simp
  · simp [Memory.read_write_other m b h, h]

/-! ### The canonical form -/

theorem Memory.wfAbove_cons {k n : Nat} {v : Byte} {rest : Memory} :
    Memory.wfAbove ((k, v) :: rest) n = true ↔
      n ≤ k ∧ k < 65536 ∧ v ≠ Config.unlistedByte ∧ Memory.wfAbove rest (k + 1) = true := by
  simp [Memory.wfAbove, and_assoc]

theorem Memory.wfAbove_mono {m : Memory} {n n' : Nat} (hn : n' ≤ n) (h : m.wfAbove n = true) :
    m.wfAbove n' = true := by
  cases m with
  | nil => rfl
  | cons e rest =>
    obtain ⟨k, v⟩ := e
    rw [Memory.wfAbove_cons] at h ⊢
    exact ⟨by omega, h.2⟩

theorem Memory.wfAbove_erase {m : Memory} {n : Nat} (j : Nat) (h : m.wfAbove n = true) :
    (m.erase j).wfAbove n = true := by
  induction m generalizing n with
  | nil => rfl
  | cons e rest ih =>
    obtain ⟨k, v⟩ := e
    rw [Memory.wfAbove_cons] at h
    obtain ⟨h1, h2, h3, h4⟩ := h
    by_cases hk : k = j
    · simpa [Memory.erase, hk] using ih (Memory.wfAbove_mono (by omega) h4)
    · simpa [Memory.erase, hk] using Memory.wfAbove_cons.2 ⟨h1, h2, h3, ih h4⟩

theorem Memory.wfAbove_insert {m : Memory} {n j : Nat} {b : Byte} (hj : j < 65536) (hn : n ≤ j)
    (hb : b ≠ Config.unlistedByte) (h : (m.erase j).wfAbove n = true) :
    ((m.erase j).insert j b).wfAbove n = true := by
  induction m generalizing n with
  | nil => exact Memory.wfAbove_cons.2 ⟨hn, hj, hb, rfl⟩
  | cons e rest ih =>
    obtain ⟨k, v⟩ := e
    by_cases hk : k = j
    · simp only [Memory.erase, hk, if_true] at h ⊢
      exact ih hn h
    · simp only [Memory.erase, hk, if_false] at h ⊢
      obtain ⟨h1, h2, h3, h4⟩ := Memory.wfAbove_cons.1 h
      by_cases hlt : j < k
      · simp only [Memory.insert, hlt, if_true]
        exact Memory.wfAbove_cons.2 ⟨hn, hj, hb, Memory.wfAbove_cons.2 ⟨by omega, h2, h3, h4⟩⟩
      · simp only [Memory.insert, hlt, if_false]
        exact Memory.wfAbove_cons.2 ⟨h1, h2, h3, ih (by omega) h4⟩

/-- A write keeps the canonical form. -/
theorem Memory.wf_write {m : Memory} (address : Word) (b : Byte) (h : m.wf = true) :
    (m.write address b).wf = true := by
  have he : (m.erase address.toNat).wfAbove 0 = true := Memory.wfAbove_erase _ h
  unfold Memory.wf Memory.write Memory.writeNat
  split
  · exact he
  · next hb => exact Memory.wfAbove_insert address.isLt (Nat.zero_le _) hb he

/-! ### Equal bytes, equal lists -/

theorem Memory.readNat_below {m : Memory} {n k : Nat} (h : m.wfAbove n = true) (hk : k < n) :
    m.readNat k = Config.unlistedByte := by
  induction m generalizing n with
  | nil => rfl
  | cons e rest ih =>
    obtain ⟨j, v⟩ := e
    obtain ⟨h1, _, _, h4⟩ := Memory.wfAbove_cons.1 h
    have hne : j ≠ k := by omega
    simpa [Memory.readNat, hne] using ih h4 (by omega)

theorem Memory.eq_of_readNat {m m' : Memory} {n : Nat} (h : m.wfAbove n = true) (h' : m'.wfAbove n = true)
    (heq : ∀ k, k < 65536 → m.readNat k = m'.readNat k) : m = m' := by
  induction m generalizing m' n with
  | nil =>
    cases m' with
    | nil => rfl
    | cons e' rest' =>
      obtain ⟨k', v'⟩ := e'
      obtain ⟨_, hk', hv', _⟩ := Memory.wfAbove_cons.1 h'
      have hr := heq k' hk'
      simp only [Memory.readNat, if_true] at hr
      exact absurd hr.symm hv'
  | cons e rest ih =>
    obtain ⟨k, v⟩ := e
    obtain ⟨hk1, hk2, hv, hrest⟩ := Memory.wfAbove_cons.1 h
    cases m' with
    | nil =>
      have hr := heq k hk2
      simp only [Memory.readNat, if_true] at hr
      exact absurd hr hv
    | cons e' rest' =>
      obtain ⟨k', v'⟩ := e'
      obtain ⟨hk1', hk2', hv', hrest'⟩ := Memory.wfAbove_cons.1 h'
      have hkk : k = k' := by
        rcases Nat.lt_trichotomy k k' with hlt | heq' | hlt
        · have hr := heq k hk2
          have hlow : Memory.readNat rest' k = Config.unlistedByte := Memory.readNat_below hrest' (by omega)
          simp only [Memory.readNat, if_true, Nat.ne_of_gt hlt, if_false, hlow] at hr
          exact absurd hr hv
        · exact heq'
        · have hr := heq k' hk2'
          have hlow : Memory.readNat rest k' = Config.unlistedByte := Memory.readNat_below hrest (by omega)
          simp only [Memory.readNat, if_true, Nat.ne_of_gt hlt, if_false, hlow] at hr
          exact absurd hr.symm hv'
      subst hkk
      have hvv : v = v' := by simpa [Memory.readNat] using heq k hk2
      subst hvv
      have hr : rest = rest' := ih hrest hrest' (fun j hj => by
        by_cases hjk : k = j
        · subst hjk
          rw [Memory.readNat_below hrest (by omega), Memory.readNat_below hrest' (by omega)]
        · simpa [Memory.readNat, hjk] using heq j hj)
      rw [hr]

/-- Canonical memories that read the same everywhere are the same list: equal memories are equal data. -/
theorem Memory.eq_of_read {m m' : Memory} (h : m.wf = true) (h' : m'.wf = true)
    (heq : ∀ address : Word, m.read address = m'.read address) : m = m' :=
  Memory.eq_of_readNat h h' fun k hk => by
    have := heq (BitVec.ofNat 16 k)
    rwa [Memory.read, Memory.read, BitVec.toNat_ofNat, Nat.mod_eq_of_lt hk] at this

end Sys2Proof.Machine
end

