-- ==== Sys2Proof/Laws/State.lean ====
section
/-!
SUPPORT. One lemma per field per named update of the state, so that no later proof unfolds a record update.
-/

namespace Sys2Proof.Machine.State

/-! ### `record` -/

@[simp] theorem record_a (s : State) (l : List PortCall) : (s.record l).a = s.a := rfl
@[simp] theorem record_x (s : State) (l : List PortCall) : (s.record l).x = s.x := rfl
@[simp] theorem record_y (s : State) (l : List PortCall) : (s.record l).y = s.y := rfl
@[simp] theorem record_sp (s : State) (l : List PortCall) : (s.record l).sp = s.sp := rfl
@[simp] theorem record_pc (s : State) (l : List PortCall) : (s.record l).pc = s.pc := rfl
@[simp] theorem record_n (s : State) (l : List PortCall) : (s.record l).n = s.n := rfl
@[simp] theorem record_v (s : State) (l : List PortCall) : (s.record l).v = s.v := rfl
@[simp] theorem record_d (s : State) (l : List PortCall) : (s.record l).d = s.d := rfl
@[simp] theorem record_i (s : State) (l : List PortCall) : (s.record l).i = s.i := rfl
@[simp] theorem record_z (s : State) (l : List PortCall) : (s.record l).z = s.z := rfl
@[simp] theorem record_c (s : State) (l : List PortCall) : (s.record l).c = s.c := rfl
@[simp] theorem record_inputs (s : State) (l : List PortCall) : (s.record l).inputs = s.inputs := rfl
@[simp] theorem record_mem (s : State) (l : List PortCall) : (s.record l).mem = s.mem := rfl
@[simp] theorem record_cycles (s : State) (l : List PortCall) : (s.record l).cycles = s.cycles := rfl
@[simp] theorem record_bus (s : State) (l : List PortCall) : (s.record l).bus = s.bus ++ l := rfl

/-! ### `readPort` -/

@[simp] theorem readPort_a (s : State) (w : Word) : (s.readPort w).a = s.a := rfl
@[simp] theorem readPort_x (s : State) (w : Word) : (s.readPort w).x = s.x := rfl
@[simp] theorem readPort_y (s : State) (w : Word) : (s.readPort w).y = s.y := rfl
@[simp] theorem readPort_sp (s : State) (w : Word) : (s.readPort w).sp = s.sp := rfl
@[simp] theorem readPort_pc (s : State) (w : Word) : (s.readPort w).pc = s.pc := rfl
@[simp] theorem readPort_n (s : State) (w : Word) : (s.readPort w).n = s.n := rfl
@[simp] theorem readPort_v (s : State) (w : Word) : (s.readPort w).v = s.v := rfl
@[simp] theorem readPort_d (s : State) (w : Word) : (s.readPort w).d = s.d := rfl
@[simp] theorem readPort_i (s : State) (w : Word) : (s.readPort w).i = s.i := rfl
@[simp] theorem readPort_z (s : State) (w : Word) : (s.readPort w).z = s.z := rfl
@[simp] theorem readPort_c (s : State) (w : Word) : (s.readPort w).c = s.c := rfl
@[simp] theorem readPort_inputs (s : State) (w : Word) : (s.readPort w).inputs = s.inputs := rfl
@[simp] theorem readPort_mem (s : State) (w : Word) : (s.readPort w).mem = s.mem := rfl
@[simp] theorem readPort_cycles (s : State) (w : Word) : (s.readPort w).cycles = s.cycles := rfl
@[simp] theorem readPort_bus (s : State) (w : Word) : (s.readPort w).bus = s.bus ++ [s.readCall w] := rfl

/-! ### `memWrite` -/

@[simp] theorem memWrite_a (s : State) (w : Word) (b : Byte) : (s.memWrite w b).a = s.a := rfl
@[simp] theorem memWrite_x (s : State) (w : Word) (b : Byte) : (s.memWrite w b).x = s.x := rfl
@[simp] theorem memWrite_y (s : State) (w : Word) (b : Byte) : (s.memWrite w b).y = s.y := rfl
@[simp] theorem memWrite_sp (s : State) (w : Word) (b : Byte) : (s.memWrite w b).sp = s.sp := rfl
@[simp] theorem memWrite_pc (s : State) (w : Word) (b : Byte) : (s.memWrite w b).pc = s.pc := rfl
@[simp] theorem memWrite_n (s : State) (w : Word) (b : Byte) : (s.memWrite w b).n = s.n := rfl
@[simp] theorem memWrite_v (s : State) (w : Word) (b : Byte) : (s.memWrite w b).v = s.v := rfl
@[simp] theorem memWrite_d (s : State) (w : Word) (b : Byte) : (s.memWrite w b).d = s.d := rfl
@[simp] theorem memWrite_i (s : State) (w : Word) (b : Byte) : (s.memWrite w b).i = s.i := rfl
@[simp] theorem memWrite_z (s : State) (w : Word) (b : Byte) : (s.memWrite w b).z = s.z := rfl
@[simp] theorem memWrite_c (s : State) (w : Word) (b : Byte) : (s.memWrite w b).c = s.c := rfl
@[simp] theorem memWrite_inputs (s : State) (w : Word) (b : Byte) : (s.memWrite w b).inputs = s.inputs := rfl
@[simp] theorem memWrite_mem (s : State) (w : Word) (b : Byte) : (s.memWrite w b).mem = s.mem.write w b := rfl
@[simp] theorem memWrite_cycles (s : State) (w : Word) (b : Byte) : (s.memWrite w b).cycles = s.cycles := rfl
@[simp] theorem memWrite_bus (s : State) (w : Word) (b : Byte) : (s.memWrite w b).bus = s.bus ++ [.write w b] := rfl

/-! ### `charge` -/

@[simp] theorem charge_a (s : State) (k : Nat) : (s.charge k).a = s.a := rfl
@[simp] theorem charge_x (s : State) (k : Nat) : (s.charge k).x = s.x := rfl
@[simp] theorem charge_y (s : State) (k : Nat) : (s.charge k).y = s.y := rfl
@[simp] theorem charge_sp (s : State) (k : Nat) : (s.charge k).sp = s.sp := rfl
@[simp] theorem charge_pc (s : State) (k : Nat) : (s.charge k).pc = s.pc := rfl
@[simp] theorem charge_n (s : State) (k : Nat) : (s.charge k).n = s.n := rfl
@[simp] theorem charge_v (s : State) (k : Nat) : (s.charge k).v = s.v := rfl
@[simp] theorem charge_d (s : State) (k : Nat) : (s.charge k).d = s.d := rfl
@[simp] theorem charge_i (s : State) (k : Nat) : (s.charge k).i = s.i := rfl
@[simp] theorem charge_z (s : State) (k : Nat) : (s.charge k).z = s.z := rfl
@[simp] theorem charge_c (s : State) (k : Nat) : (s.charge k).c = s.c := rfl
@[simp] theorem charge_inputs (s : State) (k : Nat) : (s.charge k).inputs = s.inputs := rfl
@[simp] theorem charge_mem (s : State) (k : Nat) : (s.charge k).mem = s.mem := rfl
@[simp] theorem charge_cycles (s : State) (k : Nat) : (s.charge k).cycles = s.cycles + k := rfl
@[simp] theorem charge_bus (s : State) (k : Nat) : (s.charge k).bus = s.bus := rfl

/-! ### `push` -/

@[simp] theorem push_a (s : State) (b : Byte) : (s.push b).a = s.a := rfl
@[simp] theorem push_x (s : State) (b : Byte) : (s.push b).x = s.x := rfl
@[simp] theorem push_y (s : State) (b : Byte) : (s.push b).y = s.y := rfl
@[simp] theorem push_sp (s : State) (b : Byte) : (s.push b).sp = s.sp - 1#8 := rfl
@[simp] theorem push_pc (s : State) (b : Byte) : (s.push b).pc = s.pc := rfl
@[simp] theorem push_n (s : State) (b : Byte) : (s.push b).n = s.n := rfl
@[simp] theorem push_v (s : State) (b : Byte) : (s.push b).v = s.v := rfl
@[simp] theorem push_d (s : State) (b : Byte) : (s.push b).d = s.d := rfl
@[simp] theorem push_i (s : State) (b : Byte) : (s.push b).i = s.i := rfl
@[simp] theorem push_z (s : State) (b : Byte) : (s.push b).z = s.z := rfl
@[simp] theorem push_c (s : State) (b : Byte) : (s.push b).c = s.c := rfl
@[simp] theorem push_inputs (s : State) (b : Byte) : (s.push b).inputs = s.inputs := rfl
@[simp] theorem push_mem (s : State) (b : Byte) : (s.push b).mem = s.mem.write (stackAddress s.sp) b := rfl
@[simp] theorem push_cycles (s : State) (b : Byte) : (s.push b).cycles = s.cycles := rfl
@[simp] theorem push_bus (s : State) (b : Byte) : (s.push b).bus = s.bus ++ [.write (stackAddress s.sp) b] := rfl

/-! ### `pull` -/

@[simp] theorem pull_a (s : State) : s.pull.a = s.a := rfl
@[simp] theorem pull_x (s : State) : s.pull.x = s.x := rfl
@[simp] theorem pull_y (s : State) : s.pull.y = s.y := rfl
@[simp] theorem pull_sp (s : State) : s.pull.sp = s.sp + 1#8 := rfl
@[simp] theorem pull_pc (s : State) : s.pull.pc = s.pc := rfl
@[simp] theorem pull_n (s : State) : s.pull.n = s.n := rfl
@[simp] theorem pull_v (s : State) : s.pull.v = s.v := rfl
@[simp] theorem pull_d (s : State) : s.pull.d = s.d := rfl
@[simp] theorem pull_i (s : State) : s.pull.i = s.i := rfl
@[simp] theorem pull_z (s : State) : s.pull.z = s.z := rfl
@[simp] theorem pull_c (s : State) : s.pull.c = s.c := rfl
@[simp] theorem pull_inputs (s : State) : s.pull.inputs = s.inputs := rfl
@[simp] theorem pull_mem (s : State) : s.pull.mem = s.mem := rfl
@[simp] theorem pull_cycles (s : State) : s.pull.cycles = s.cycles := rfl
@[simp] theorem pull_bus (s : State) : s.pull.bus = s.bus ++ [s.readCall (stackAddress (s.sp + 1#8))] := rfl

/-! ### `fetch8` -/

@[simp] theorem fetch8_a (s : State) : s.fetch8.a = s.a := rfl
@[simp] theorem fetch8_x (s : State) : s.fetch8.x = s.x := rfl
@[simp] theorem fetch8_y (s : State) : s.fetch8.y = s.y := rfl
@[simp] theorem fetch8_sp (s : State) : s.fetch8.sp = s.sp := rfl
@[simp] theorem fetch8_pc (s : State) : s.fetch8.pc = s.pc + 1#16 := rfl
@[simp] theorem fetch8_n (s : State) : s.fetch8.n = s.n := rfl
@[simp] theorem fetch8_v (s : State) : s.fetch8.v = s.v := rfl
@[simp] theorem fetch8_d (s : State) : s.fetch8.d = s.d := rfl
@[simp] theorem fetch8_i (s : State) : s.fetch8.i = s.i := rfl
@[simp] theorem fetch8_z (s : State) : s.fetch8.z = s.z := rfl
@[simp] theorem fetch8_c (s : State) : s.fetch8.c = s.c := rfl
@[simp] theorem fetch8_inputs (s : State) : s.fetch8.inputs = s.inputs := rfl
@[simp] theorem fetch8_mem (s : State) : s.fetch8.mem = s.mem := rfl
@[simp] theorem fetch8_cycles (s : State) : s.fetch8.cycles = s.cycles := rfl
@[simp] theorem fetch8_bus (s : State) : s.fetch8.bus = s.bus ++ [s.readCall s.pc] := rfl

/-! ### `loadVector` -/

@[simp] theorem loadVector_a (s : State) (w : Word) : (s.loadVector w).a = s.a := rfl
@[simp] theorem loadVector_x (s : State) (w : Word) : (s.loadVector w).x = s.x := rfl
@[simp] theorem loadVector_y (s : State) (w : Word) : (s.loadVector w).y = s.y := rfl
@[simp] theorem loadVector_sp (s : State) (w : Word) : (s.loadVector w).sp = s.sp := rfl
@[simp] theorem loadVector_pc (s : State) (w : Word) : (s.loadVector w).pc = joinBytes (s.memRead (w + 1#16)) (s.memRead w) := rfl
@[simp] theorem loadVector_n (s : State) (w : Word) : (s.loadVector w).n = s.n := rfl
@[simp] theorem loadVector_v (s : State) (w : Word) : (s.loadVector w).v = s.v := rfl
@[simp] theorem loadVector_d (s : State) (w : Word) : (s.loadVector w).d = s.d := rfl
@[simp] theorem loadVector_i (s : State) (w : Word) : (s.loadVector w).i = s.i := rfl
@[simp] theorem loadVector_z (s : State) (w : Word) : (s.loadVector w).z = s.z := rfl
@[simp] theorem loadVector_c (s : State) (w : Word) : (s.loadVector w).c = s.c := rfl
@[simp] theorem loadVector_inputs (s : State) (w : Word) : (s.loadVector w).inputs = s.inputs := rfl
@[simp] theorem loadVector_mem (s : State) (w : Word) : (s.loadVector w).mem = s.mem := rfl
@[simp] theorem loadVector_cycles (s : State) (w : Word) : (s.loadVector w).cycles = s.cycles := rfl
@[simp] theorem loadVector_bus (s : State) (w : Word) : (s.loadVector w).bus = s.bus ++ [s.readCall w, s.readCall (w + 1#16)] := rfl

/-! ### `setNZ` -/

@[simp] theorem setNZ_a (s : State) (b : Byte) : (s.setNZ b).a = s.a := rfl
@[simp] theorem setNZ_x (s : State) (b : Byte) : (s.setNZ b).x = s.x := rfl
@[simp] theorem setNZ_y (s : State) (b : Byte) : (s.setNZ b).y = s.y := rfl
@[simp] theorem setNZ_sp (s : State) (b : Byte) : (s.setNZ b).sp = s.sp := rfl
@[simp] theorem setNZ_pc (s : State) (b : Byte) : (s.setNZ b).pc = s.pc := rfl
@[simp] theorem setNZ_n (s : State) (b : Byte) : (s.setNZ b).n = b.getLsbD 7 := rfl
@[simp] theorem setNZ_v (s : State) (b : Byte) : (s.setNZ b).v = s.v := rfl
@[simp] theorem setNZ_d (s : State) (b : Byte) : (s.setNZ b).d = s.d := rfl
@[simp] theorem setNZ_i (s : State) (b : Byte) : (s.setNZ b).i = s.i := rfl
@[simp] theorem setNZ_z (s : State) (b : Byte) : (s.setNZ b).z = (b == 0#8) := rfl
@[simp] theorem setNZ_c (s : State) (b : Byte) : (s.setNZ b).c = s.c := rfl
@[simp] theorem setNZ_inputs (s : State) (b : Byte) : (s.setNZ b).inputs = s.inputs := rfl
@[simp] theorem setNZ_mem (s : State) (b : Byte) : (s.setNZ b).mem = s.mem := rfl
@[simp] theorem setNZ_cycles (s : State) (b : Byte) : (s.setNZ b).cycles = s.cycles := rfl
@[simp] theorem setNZ_bus (s : State) (b : Byte) : (s.setNZ b).bus = s.bus := rfl

/-! ### `setP` -/

@[simp] theorem setP_a (s : State) (b : Byte) : (s.setP b).a = s.a := rfl
@[simp] theorem setP_x (s : State) (b : Byte) : (s.setP b).x = s.x := rfl
@[simp] theorem setP_y (s : State) (b : Byte) : (s.setP b).y = s.y := rfl
@[simp] theorem setP_sp (s : State) (b : Byte) : (s.setP b).sp = s.sp := rfl
@[simp] theorem setP_pc (s : State) (b : Byte) : (s.setP b).pc = s.pc := rfl
@[simp] theorem setP_n (s : State) (b : Byte) : (s.setP b).n = b.getLsbD 7 := rfl
@[simp] theorem setP_v (s : State) (b : Byte) : (s.setP b).v = b.getLsbD 6 := rfl
@[simp] theorem setP_d (s : State) (b : Byte) : (s.setP b).d = b.getLsbD 3 := rfl
@[simp] theorem setP_i (s : State) (b : Byte) : (s.setP b).i = b.getLsbD 2 := rfl
@[simp] theorem setP_z (s : State) (b : Byte) : (s.setP b).z = b.getLsbD 1 := rfl
@[simp] theorem setP_c (s : State) (b : Byte) : (s.setP b).c = b.getLsbD 0 := rfl
@[simp] theorem setP_inputs (s : State) (b : Byte) : (s.setP b).inputs = s.inputs := rfl
@[simp] theorem setP_mem (s : State) (b : Byte) : (s.setP b).mem = s.mem := rfl
@[simp] theorem setP_cycles (s : State) (b : Byte) : (s.setP b).cycles = s.cycles := rfl
@[simp] theorem setP_bus (s : State) (b : Byte) : (s.setP b).bus = s.bus := rfl

/-! ### `setAlu` -/

@[simp] theorem setAlu_a (s : State) (r : AluResult) : (s.setAlu r).a = r.value := rfl
@[simp] theorem setAlu_x (s : State) (r : AluResult) : (s.setAlu r).x = s.x := rfl
@[simp] theorem setAlu_y (s : State) (r : AluResult) : (s.setAlu r).y = s.y := rfl
@[simp] theorem setAlu_sp (s : State) (r : AluResult) : (s.setAlu r).sp = s.sp := rfl
@[simp] theorem setAlu_pc (s : State) (r : AluResult) : (s.setAlu r).pc = s.pc := rfl
@[simp] theorem setAlu_n (s : State) (r : AluResult) : (s.setAlu r).n = r.n := rfl
@[simp] theorem setAlu_v (s : State) (r : AluResult) : (s.setAlu r).v = r.v := rfl
@[simp] theorem setAlu_d (s : State) (r : AluResult) : (s.setAlu r).d = s.d := rfl
@[simp] theorem setAlu_i (s : State) (r : AluResult) : (s.setAlu r).i = s.i := rfl
@[simp] theorem setAlu_z (s : State) (r : AluResult) : (s.setAlu r).z = r.z := rfl
@[simp] theorem setAlu_c (s : State) (r : AluResult) : (s.setAlu r).c = r.c := rfl
@[simp] theorem setAlu_inputs (s : State) (r : AluResult) : (s.setAlu r).inputs = s.inputs := rfl
@[simp] theorem setAlu_mem (s : State) (r : AluResult) : (s.setAlu r).mem = s.mem := rfl
@[simp] theorem setAlu_cycles (s : State) (r : AluResult) : (s.setAlu r).cycles = s.cycles := rfl
@[simp] theorem setAlu_bus (s : State) (r : AluResult) : (s.setAlu r).bus = s.bus := rfl

/-! ### `compare` -/

@[simp] theorem compare_a (s : State) (r m : Byte) : (s.compare r m).a = s.a := rfl
@[simp] theorem compare_x (s : State) (r m : Byte) : (s.compare r m).x = s.x := rfl
@[simp] theorem compare_y (s : State) (r m : Byte) : (s.compare r m).y = s.y := rfl
@[simp] theorem compare_sp (s : State) (r m : Byte) : (s.compare r m).sp = s.sp := rfl
@[simp] theorem compare_pc (s : State) (r m : Byte) : (s.compare r m).pc = s.pc := rfl
@[simp] theorem compare_n (s : State) (r m : Byte) : (s.compare r m).n = (r - m).getLsbD 7 := rfl
@[simp] theorem compare_v (s : State) (r m : Byte) : (s.compare r m).v = s.v := rfl
@[simp] theorem compare_d (s : State) (r m : Byte) : (s.compare r m).d = s.d := rfl
@[simp] theorem compare_i (s : State) (r m : Byte) : (s.compare r m).i = s.i := rfl
@[simp] theorem compare_z (s : State) (r m : Byte) : (s.compare r m).z = (r == m) := rfl
@[simp] theorem compare_c (s : State) (r m : Byte) : (s.compare r m).c = decide (m.toNat ≤ r.toNat) := rfl
@[simp] theorem compare_inputs (s : State) (r m : Byte) : (s.compare r m).inputs = s.inputs := rfl
@[simp] theorem compare_mem (s : State) (r m : Byte) : (s.compare r m).mem = s.mem := rfl
@[simp] theorem compare_cycles (s : State) (r m : Byte) : (s.compare r m).cycles = s.cycles := rfl
@[simp] theorem compare_bus (s : State) (r m : Byte) : (s.compare r m).bus = s.bus := rfl

/-! ### `setShift` -/

@[simp] theorem setShift_a (s : State) (r : ShiftResult) : (s.setShift r).a = s.a := rfl
@[simp] theorem setShift_x (s : State) (r : ShiftResult) : (s.setShift r).x = s.x := rfl
@[simp] theorem setShift_y (s : State) (r : ShiftResult) : (s.setShift r).y = s.y := rfl
@[simp] theorem setShift_sp (s : State) (r : ShiftResult) : (s.setShift r).sp = s.sp := rfl
@[simp] theorem setShift_pc (s : State) (r : ShiftResult) : (s.setShift r).pc = s.pc := rfl
@[simp] theorem setShift_n (s : State) (r : ShiftResult) : (s.setShift r).n = r.value.getLsbD 7 := rfl
@[simp] theorem setShift_v (s : State) (r : ShiftResult) : (s.setShift r).v = s.v := rfl
@[simp] theorem setShift_d (s : State) (r : ShiftResult) : (s.setShift r).d = s.d := rfl
@[simp] theorem setShift_i (s : State) (r : ShiftResult) : (s.setShift r).i = s.i := rfl
@[simp] theorem setShift_z (s : State) (r : ShiftResult) : (s.setShift r).z = (r.value == 0#8) := rfl
@[simp] theorem setShift_c (s : State) (r : ShiftResult) : (s.setShift r).c = r.carry := rfl
@[simp] theorem setShift_inputs (s : State) (r : ShiftResult) : (s.setShift r).inputs = s.inputs := rfl
@[simp] theorem setShift_mem (s : State) (r : ShiftResult) : (s.setShift r).mem = s.mem := rfl
@[simp] theorem setShift_cycles (s : State) (r : ShiftResult) : (s.setShift r).cycles = s.cycles := rfl
@[simp] theorem setShift_bus (s : State) (r : ShiftResult) : (s.setShift r).bus = s.bus := rfl

/-! ### `loadA` -/

@[simp] theorem loadA_a (s : State) (b : Byte) : (s.loadA b).a = b := rfl
@[simp] theorem loadA_x (s : State) (b : Byte) : (s.loadA b).x = s.x := rfl
@[simp] theorem loadA_y (s : State) (b : Byte) : (s.loadA b).y = s.y := rfl
@[simp] theorem loadA_sp (s : State) (b : Byte) : (s.loadA b).sp = s.sp := rfl
@[simp] theorem loadA_pc (s : State) (b : Byte) : (s.loadA b).pc = s.pc := rfl
@[simp] theorem loadA_n (s : State) (b : Byte) : (s.loadA b).n = b.getLsbD 7 := rfl
@[simp] theorem loadA_v (s : State) (b : Byte) : (s.loadA b).v = s.v := rfl
@[simp] theorem loadA_d (s : State) (b : Byte) : (s.loadA b).d = s.d := rfl
@[simp] theorem loadA_i (s : State) (b : Byte) : (s.loadA b).i = s.i := rfl
@[simp] theorem loadA_z (s : State) (b : Byte) : (s.loadA b).z = (b == 0#8) := rfl
@[simp] theorem loadA_c (s : State) (b : Byte) : (s.loadA b).c = s.c := rfl
@[simp] theorem loadA_inputs (s : State) (b : Byte) : (s.loadA b).inputs = s.inputs := rfl
@[simp] theorem loadA_mem (s : State) (b : Byte) : (s.loadA b).mem = s.mem := rfl
@[simp] theorem loadA_cycles (s : State) (b : Byte) : (s.loadA b).cycles = s.cycles := rfl
@[simp] theorem loadA_bus (s : State) (b : Byte) : (s.loadA b).bus = s.bus := rfl

/-! ### `loadX` -/

@[simp] theorem loadX_a (s : State) (b : Byte) : (s.loadX b).a = s.a := rfl
@[simp] theorem loadX_x (s : State) (b : Byte) : (s.loadX b).x = b := rfl
@[simp] theorem loadX_y (s : State) (b : Byte) : (s.loadX b).y = s.y := rfl
@[simp] theorem loadX_sp (s : State) (b : Byte) : (s.loadX b).sp = s.sp := rfl
@[simp] theorem loadX_pc (s : State) (b : Byte) : (s.loadX b).pc = s.pc := rfl
@[simp] theorem loadX_n (s : State) (b : Byte) : (s.loadX b).n = b.getLsbD 7 := rfl
@[simp] theorem loadX_v (s : State) (b : Byte) : (s.loadX b).v = s.v := rfl
@[simp] theorem loadX_d (s : State) (b : Byte) : (s.loadX b).d = s.d := rfl
@[simp] theorem loadX_i (s : State) (b : Byte) : (s.loadX b).i = s.i := rfl
@[simp] theorem loadX_z (s : State) (b : Byte) : (s.loadX b).z = (b == 0#8) := rfl
@[simp] theorem loadX_c (s : State) (b : Byte) : (s.loadX b).c = s.c := rfl
@[simp] theorem loadX_inputs (s : State) (b : Byte) : (s.loadX b).inputs = s.inputs := rfl
@[simp] theorem loadX_mem (s : State) (b : Byte) : (s.loadX b).mem = s.mem := rfl
@[simp] theorem loadX_cycles (s : State) (b : Byte) : (s.loadX b).cycles = s.cycles := rfl
@[simp] theorem loadX_bus (s : State) (b : Byte) : (s.loadX b).bus = s.bus := rfl

/-! ### `loadY` -/

@[simp] theorem loadY_a (s : State) (b : Byte) : (s.loadY b).a = s.a := rfl
@[simp] theorem loadY_x (s : State) (b : Byte) : (s.loadY b).x = s.x := rfl
@[simp] theorem loadY_y (s : State) (b : Byte) : (s.loadY b).y = b := rfl
@[simp] theorem loadY_sp (s : State) (b : Byte) : (s.loadY b).sp = s.sp := rfl
@[simp] theorem loadY_pc (s : State) (b : Byte) : (s.loadY b).pc = s.pc := rfl
@[simp] theorem loadY_n (s : State) (b : Byte) : (s.loadY b).n = b.getLsbD 7 := rfl
@[simp] theorem loadY_v (s : State) (b : Byte) : (s.loadY b).v = s.v := rfl
@[simp] theorem loadY_d (s : State) (b : Byte) : (s.loadY b).d = s.d := rfl
@[simp] theorem loadY_i (s : State) (b : Byte) : (s.loadY b).i = s.i := rfl
@[simp] theorem loadY_z (s : State) (b : Byte) : (s.loadY b).z = (b == 0#8) := rfl
@[simp] theorem loadY_c (s : State) (b : Byte) : (s.loadY b).c = s.c := rfl
@[simp] theorem loadY_inputs (s : State) (b : Byte) : (s.loadY b).inputs = s.inputs := rfl
@[simp] theorem loadY_mem (s : State) (b : Byte) : (s.loadY b).mem = s.mem := rfl
@[simp] theorem loadY_cycles (s : State) (b : Byte) : (s.loadY b).cycles = s.cycles := rfl
@[simp] theorem loadY_bus (s : State) (b : Byte) : (s.loadY b).bus = s.bus := rfl

end Sys2Proof.Machine.State
end

