-- ==== Sys2Proof/Laws/Ops.lean ====
section
/-!
SUPPORT. One lemma per shared operation that says all it does to the state, which later proofs cite instead of unfolding
it; and the facts about stack addresses and the status byte that they need.
-/

namespace Sys2Proof.Machine

/-! ### Bits -/

theorem isNegative_eq : ∀ b : Byte, isNegative b = b.getLsbD 7 := by decide +kernel
theorem isZero_eq : ∀ b : Byte, isZero b = (b == 0#8) := by decide +kernel

/-- The status byte loads back into the flags it was made from. -/
theorem setP_pByte_flag (s t : State) (b : Bool) (f : StatusFlag) : (t.setP (s.pByte b)).flag f = s.flag f := by
  have h : ∀ n v d i z c b : Bool, ∀ p : Byte,
      p = BitVec.ofNat 8 (n.toNat * 128 + v.toNat * 64 + 32 + b.toNat * 16 + d.toNat * 8 + i.toNat * 4 + z.toNat * 2 +
        c.toNat) →
      p.getLsbD 7 = n ∧ p.getLsbD 6 = v ∧ p.getLsbD 3 = d ∧ p.getLsbD 2 = i ∧ p.getLsbD 1 = z ∧ p.getLsbD 0 = c := by
    intro n v d i z c b p h; subst h; revert n v d i z c b; decide +kernel
  obtain ⟨h1, h2, h3, h4, h5, h6⟩ := h s.n s.v s.d s.i s.z s.c b (s.pByte b) rfl
  cases f <;> simp only [State.flag, State.setP, h1, h2, h3, h4, h5, h6]

@[simp] theorem charge_flag (s : State) (k : Nat) (f : StatusFlag) : (s.charge k).flag f = s.flag f := by cases f <;> rfl

/-! ### Stack addresses -/

@[simp] theorem stackAddress_toNat (sp : Byte) : (stackAddress sp).toNat = 256 + sp.toNat := by
  have := sp.isLt; simp [stackAddress]; omega

@[simp] theorem stackAddress_inj {a b : Byte} : stackAddress a = stackAddress b ↔ a = b := by
  constructor
  · intro h
    have := congrArg BitVec.toNat h
    rw [stackAddress_toNat, stackAddress_toNat] at this
    exact BitVec.eq_of_toNat_eq (by omega)
  · rintro rfl; rfl

theorem sub1_sub1 : ∀ b : Byte, b - 1#8 - 1#8 = b - 2#8 := by decide +kernel
theorem sub2_sub1 : ∀ b : Byte, b - 2#8 - 1#8 = b - 3#8 := by decide +kernel
theorem add1_add1 : ∀ b : Byte, b + 1#8 + 1#8 = b + 2#8 := by decide +kernel
theorem add2_add1 : ∀ b : Byte, b + 2#8 + 1#8 = b + 3#8 := by decide +kernel
theorem sub1_ne : ∀ b : Byte, b - 1#8 ≠ b := by decide +kernel
theorem sub2_ne : ∀ b : Byte, b - 2#8 ≠ b := by decide +kernel
theorem sub2_ne_sub1 : ∀ b : Byte, b - 2#8 ≠ b - 1#8 := by decide +kernel

/-- The vectors lie outside the stack's page. -/
theorem irqBrkVector_ne_stack (sp : Byte) : irqBrkVector ≠ stackAddress sp ∧ irqBrkVector + 1#16 ≠ stackAddress sp := by
  revert sp; decide +kernel

/-! ### The port and the stack -/

theorem State.push_eq (v : Byte) (s : State) : s.push v =
    { s with sp := s.sp - 1#8, mem := s.mem.write (stackAddress s.sp) v, bus := s.bus ++ [.write (stackAddress s.sp) v] } :=
  rfl

theorem State.pull_eq (s : State) : s.pull =
    { s with sp := s.sp + 1#8, bus := s.bus ++ [.read (stackAddress (s.sp + 1#8)) s.pulled] } := rfl

theorem State.pulled_eq (s : State) : s.pulled = s.mem.read (stackAddress (s.sp + 1#8)) := rfl

theorem State.pushWord_eq (w : Word) (s : State) : s.pushWord w =
    { s with
      sp := s.sp - 2#8
      mem := (s.mem.write (stackAddress s.sp) (hiByte w)).write (stackAddress (s.sp - 1#8)) (loByte w)
      bus := s.bus ++ [.write (stackAddress s.sp) (hiByte w), .write (stackAddress (s.sp - 1#8)) (loByte w)] } := by
  simp [State.pushWord, State.push_eq, sub1_sub1]

theorem State.pullWord_eq (s : State) : s.pullWord =
    { s with
      sp := s.sp + 2#8
      bus := s.bus ++ [.read (stackAddress (s.sp + 1#8)) (s.mem.read (stackAddress (s.sp + 1#8))),
        .read (stackAddress (s.sp + 2#8)) (s.mem.read (stackAddress (s.sp + 2#8)))] } := by
  simp [State.pullWord, State.pull_eq, State.pulled_eq, add1_add1]

theorem State.pulledWord_eq (s : State) : s.pulledWord =
    joinBytes (s.mem.read (stackAddress (s.sp + 2#8))) (s.mem.read (stackAddress (s.sp + 1#8))) := by
  simp [State.pulledWord, State.pull_eq, State.pulled_eq, add1_add1]

theorem State.push_wf (v : Byte) (s : State) (h : s.mem.wf = true) : (s.push v).mem.wf = true := Memory.wf_write _ _ h

theorem State.memWrite_wf (address : Word) (b : Byte) (s : State) (h : s.mem.wf = true) :
    (s.memWrite address b).mem.wf = true := Memory.wf_write _ _ h

theorem State.pushWord_wf (w : Word) (s : State) (h : s.mem.wf = true) : (s.pushWord w).mem.wf = true :=
  State.push_wf _ _ (State.push_wf _ _ h)

/-! ### Interrupts -/

theorem State.interruptSequence_wf (vector : Word) (b : Bool) (s : State) (h : s.mem.wf = true) :
    (s.interruptSequence vector b).mem.wf = true := State.push_wf _ _ (State.pushWord_wf _ _ h)

/-- Reading a byte after the three pushes of an interrupt sequence. -/
theorem State.interruptSequence_read (vector : Word) (b : Bool) (s : State) (address : Word) :
    (s.interruptSequence vector b).mem.read address =
      if address = stackAddress s.sp then hiByte s.pc
      else if address = stackAddress (s.sp - 1#8) then loByte s.pc
      else if address = stackAddress (s.sp - 2#8) then s.pByte b
      else s.mem.read address := by
  have hp : (s.interruptSequence vector b).mem = ((s.mem.write (stackAddress s.sp) (hiByte s.pc)).write
      (stackAddress (s.sp - 1#8)) (loByte s.pc)).write (stackAddress (s.sp - 2#8)) (s.pByte b) := by
    simp [State.interruptSequence, State.pushWord_eq, State.push_eq, State.pByte, State.loadVector]
  rw [hp, Memory.read_write, Memory.read_write, Memory.read_write]
  by_cases h1 : address = stackAddress s.sp
  · subst h1; simp [(sub1_ne _).symm, (sub2_ne _).symm]
  · by_cases h2 : address = stackAddress (s.sp - 1#8)
    · subst h2; simp [(sub2_ne_sub1 _).symm]
    · simp [h1, h2]

/-- The whole of an interrupt sequence (R233); the vector is read from the memory after the pushes. -/
theorem State.interruptSequence_eq (vector : Word) (b : Bool) (s : State) :
    s.interruptSequence vector b =
      { s with
        sp := s.sp - 3#8
        i := true
        mem := (s.interruptSequence vector b).mem
        pc := joinBytes ((s.interruptSequence vector b).mem.read (vector + 1#16))
          ((s.interruptSequence vector b).mem.read vector)
        bus := s.bus ++ [.write (stackAddress s.sp) (hiByte s.pc), .write (stackAddress (s.sp - 1#8)) (loByte s.pc),
          .write (stackAddress (s.sp - 2#8)) (s.pByte b),
          .read vector ((s.interruptSequence vector b).mem.read vector),
          .read (vector + 1#16) ((s.interruptSequence vector b).mem.read (vector + 1#16))] } := by
  simp [State.interruptSequence, State.pushWord_eq, State.push_eq, State.pByte, State.loadVector, State.readCall,
    State.memRead, sub2_sub1]

/-- RTI (R219): the status byte and the return address are pulled. -/
theorem State.returnFromInterrupt_eq (s : State) : s.returnFromInterrupt =
    { s.setP (s.mem.read (stackAddress (s.sp + 1#8))) with
      sp := s.sp + 3#8
      pc := joinBytes (s.mem.read (stackAddress (s.sp + 3#8))) (s.mem.read (stackAddress (s.sp + 2#8)))
      bus := s.bus ++ [.read (stackAddress (s.sp + 1#8)) (s.mem.read (stackAddress (s.sp + 1#8))),
        .read (stackAddress (s.sp + 2#8)) (s.mem.read (stackAddress (s.sp + 2#8))),
        .read (stackAddress (s.sp + 3#8)) (s.mem.read (stackAddress (s.sp + 3#8)))] } := by
  simp [State.returnFromInterrupt, State.pull_eq, State.pulled_eq, State.pullWord, State.pulledWord, State.setP, add1_add1,
    add2_add1]

/-! ### Shapes of instructions -/

theorem State.record_nil (s : State) : s.record [] = s := by cases s; simp [State.record]

theorem readImm_eq (k : Nat) (v : Byte) (e : Byte → State → State) (s : State) :
    readImm k v e s = .next ((e v s).charge k) := rfl

theorem readMem_eq (k : Nat) (flag : Bool) (m : AddrMode) (e : Byte → State → State) (s : State) :
    readMem k flag m e s = .next ((e (s.mem.read (m.ea s))
      (s.record (m.pointerReads s ++ [.read (m.ea s) (s.mem.read (m.ea s))]))).charge (k + m.penalty flag s)) := by
  simp [readMem, finish, AddrMode.resolve, State.readPort, State.record, State.readCall, State.memRead]

theorem writeMem_eq (k : Nat) (m : AddrMode) (b : Byte) (s : State) :
    writeMem k m b s = .next { s with
      mem := s.mem.write (m.ea s) b
      bus := s.bus ++ (m.pointerReads s ++ [.write (m.ea s) b])
      cycles := s.cycles + k } := by
  simp [writeMem, finish, State.charge, State.memWrite, AddrMode.resolve, State.record]

theorem modifyMem_eq (m : AddrMode) (b : Byte) (s : State) :
    modifyMem m b s = { s with
      mem := s.mem.write (m.ea s) b
      bus := s.bus ++ (m.pointerReads s ++ [.read (m.ea s) (s.mem.read (m.ea s)), .write (m.ea s) b]) } := by
  simp [modifyMem, State.memWrite, State.readPort, AddrMode.resolve, State.record, State.readCall, State.memRead]

theorem stepMem_eq (k : Nat) (m : AddrMode) (f : Byte → Byte) (s : State) :
    stepMem k m f s = .next (((modifyMem m (f (s.mem.read (m.ea s))) s).setNZ (f (s.mem.read (m.ea s)))).charge k) := rfl

theorem shiftMem_eq (k : Nat) (m : AddrMode) (f : Byte → Bool → ShiftResult) (s : State) :
    shiftMem k m f s = .next (((modifyMem m (f (s.mem.read (m.ea s)) s.c).value s).setShift
      (f (s.mem.read (m.ea s)) s.c)).charge k) := rfl

theorem shiftAcc_eq (k : Nat) (f : Byte → Bool → ShiftResult) (s : State) :
    shiftAcc k f s = .next { s with
      a := (f s.a s.c).value, n := (f s.a s.c).value.getLsbD 7, z := (f s.a s.c).value == 0#8, c := (f s.a s.c).carry,
      cycles := s.cycles + k } := rfl

theorem jumpTo_eq (k : Nat) (m : AddrMode) (s : State) :
    jumpTo k m s = .next { s with pc := m.ea s, bus := s.bus ++ m.pointerReads s, cycles := s.cycles + k } := rfl

theorem callSubroutine_eq (w : Word) (s : State) :
    s.callSubroutine w = { s.pushWord (s.pc - 1#16) with pc := w } := rfl

theorem returnFromSubroutine_eq (s : State) : s.returnFromSubroutine =
    { s.pullWord with
      pc := joinBytes (s.mem.read (stackAddress (s.sp + 2#8))) (s.mem.read (stackAddress (s.sp + 1#8))) + 1#16 } := by
  rw [State.returnFromSubroutine, State.pulledWord_eq]

end Sys2Proof.Machine
end

