-- ==== Sys2Proof/Laws/ByOperation.lean ====
section
/-!
SUPPORT. `exec` once more, by operation instead of by opcode: the effect of each of the 56 operations over the operand and
the effective address of its mode, and the cost of the descriptor. `exec_eq` says that the 151 arms are these; a proof
about all instructions goes by its 56 cases.
-/

namespace Sys2Proof.Machine

/-- The state after the pointer reads of an instruction. -/
def resolved (i : Instr) (s : State) : State :=
  match addrModeOf i with
  | none => s
  | some m => m.resolve s

/-- The state after the reads of an instruction that takes a data byte as its operand. -/
def withOperandRead (i : Instr) (s : State) : State :=
  match addrModeOf i with
  | none => s
  | some m => (m.resolve s).readPort (m.ea s)

theorem resolved_eq (i : Instr) (s : State) : resolved i s = s.record (pointerReadsOf i s) := by
  unfold resolved pointerReadsOf
  cases addrModeOf i <;> simp [AddrMode.resolve, State.record_nil]

theorem withOperandRead_eq (i : Instr) (s : State) : withOperandRead i s = s.record (operandReads i s) := by
  unfold withOperandRead operandReads
  cases addrModeOf i
  · simp [State.record_nil]
  · simp [AddrMode.resolve, State.readPort, State.record, State.readCall, State.memRead, List.append_assoc]

/-- A read-modify-write of the operand byte. -/
def modifyEffect (i : Instr) (b : Byte) (s : State) : State :=
  ((resolved i s).readPort (eaOf i s)).memWrite (eaOf i s) b

/-- A store to the effective address. -/
def storeEffect (i : Instr) (b : Byte) (s : State) : State := (resolved i s).memWrite (eaOf i s) b

/-- INC and DEC. -/
def stepEffect (i : Instr) (b : Byte) (s : State) : State := (modifyEffect i b s).setNZ b

/-- A shift, of the accumulator or of the operand byte. -/
def shiftEffect (i : Instr) (r : ShiftResult) (s : State) : State :=
  if i.mode = .ACC then State.setShift r { s with a := r.value } else (modifyEffect i r.value s).setShift r

/-- A branch: the program counter moves when the condition holds. -/
def branchEffect (i : Instr) (s : State) : State :=
  if branchTaken i s then { s with pc := branchTarget s.pc (i.operandBytes.headD 0#8) } else s

/-- The effect of an instruction beside its cost. -/
def effectOf (i : Instr) (s : State) : State :=
  match i.operation with
  | .LDA => State.loadA (operandOf i s) (withOperandRead i s)
  | .LDX => State.loadX (operandOf i s) (withOperandRead i s)
  | .LDY => State.loadY (operandOf i s) (withOperandRead i s)
  | .STA => storeEffect i s.a s
  | .STX => storeEffect i s.x s
  | .STY => storeEffect i s.y s
  | .TAX => s.loadX s.a
  | .TAY => s.loadY s.a
  | .TXA => s.loadA s.x
  | .TYA => s.loadA s.y
  | .TSX => s.loadX s.sp
  | .TXS => { s with sp := s.x }
  | .PHA => s.push s.a
  | .PHP => s.push (s.pByte true)
  | .PLA => s.pull.loadA s.pulled
  | .PLP => s.pull.setP s.pulled
  | .AND => State.andA (operandOf i s) (withOperandRead i s)
  | .ORA => State.oraA (operandOf i s) (withOperandRead i s)
  | .EOR => State.eorA (operandOf i s) (withOperandRead i s)
  | .BIT => State.bitTest (operandOf i s) (withOperandRead i s)
  | .ADC => State.adc (operandOf i s) (withOperandRead i s)
  | .SBC => State.sbc (operandOf i s) (withOperandRead i s)
  | .CMP => State.cmpA (operandOf i s) (withOperandRead i s)
  | .CPX => State.cmpX (operandOf i s) (withOperandRead i s)
  | .CPY => State.cmpY (operandOf i s) (withOperandRead i s)
  | .INC => stepEffect i (operandOf i s + 1#8) s
  | .DEC => stepEffect i (operandOf i s - 1#8) s
  | .INX => s.loadX (s.x + 1#8)
  | .INY => s.loadY (s.y + 1#8)
  | .DEX => s.loadX (s.x - 1#8)
  | .DEY => s.loadY (s.y - 1#8)
  | .ASL => shiftEffect i (shiftLeft (operandOf i s) s.c) s
  | .LSR => shiftEffect i (shiftRight (operandOf i s) s.c) s
  | .ROL => shiftEffect i (rotateLeft (operandOf i s) s.c) s
  | .ROR => shiftEffect i (rotateRight (operandOf i s) s.c) s
  | .JMP => { resolved i s with pc := eaOf i s }
  | .JSR => s.callSubroutine (eaOf i s)
  | .RTS => s.returnFromSubroutine
  | .BPL | .BMI | .BVC | .BVS | .BCC | .BCS | .BNE | .BEQ => branchEffect i s
  | .CLC => { s with c := false }
  | .SEC => { s with c := true }
  | .CLI => { s with i := false }
  | .SEI => { s with i := true }
  | .CLD => { s with d := false }
  | .SED => { s with d := true }
  | .CLV => { s with v := false }
  | .NOP => s
  | .BRK => s.breakSequence
  | .RTI => s.returnFromInterrupt

/-- The cycles a taken branch adds, by the pages of the two addresses. -/
theorem branchCycles_eq (w : Word) (o : Byte) :
    branchCycles w o = if ((w.toNat : Int) + o.toInt) % 65536 / 256 = (w.toNat : Int) / 256 then 1 else 2 := by
  have h : hiByte (branchTarget w o) = hiByte w ↔ ((w.toNat : Int) + o.toInt) % 65536 / 256 = (w.toNat : Int) / 256 := by
    rw [← add_sext_toNat, BitVec.toNat_eq, hiByte_toNat, hiByte_toNat, branchTarget]
    omega
  unfold branchCycles
  by_cases hc : hiByte (branchTarget w o) = hiByte w
  · simp [hc, h.mp hc]
  · simp [hc, mt h.mpr hc]

/-- A branch, whichever flag it tests. -/
theorem branch_eq (i : Instr) (o : Byte) (s : State) (ho : i.operandBytes.headD 0#8 = o) :
    branch 2 (branchTaken i s) o s = .next ((branchEffect i s).charge (2 + branchExtraOf i s)) := by
  subst ho
  unfold branch branchEffect branchExtraOf
  rw [branchCycles_eq]
  cases branchTaken i s <;> rfl

/-- Every arm of `exec` is its operation's effect at its descriptor's cost. -/
theorem exec_eq (i : Instr) (s : State) :
    exec i s = .next ((effectOf i s).charge (costOf i s + branchExtraOf i s)) := by
  cases i
  case bpl o => exact branch_eq (.bpl o) o s rfl
  case bmi o => exact branch_eq (.bmi o) o s rfl
  case bvc o => exact branch_eq (.bvc o) o s rfl
  case bvs o => exact branch_eq (.bvs o) o s rfl
  case bcc o => exact branch_eq (.bcc o) o s rfl
  case bcs o => exact branch_eq (.bcs o) o s rfl
  case bne o => exact branch_eq (.bne o) o s rfl
  case beq o => exact branch_eq (.beq o) o s rfl
  all_goals rfl

end Sys2Proof.Machine
end

