-- ==== Sys2Proof/Laws/Codec.lean ====
section
/-!
SUPPORT. The decoder's table and the encoder, row by row.
-/

namespace Sys2Proof

/-- The eight lists and the whole table give the same row. -/
theorem findRow_table : ∀ b : Byte,
    (findRow b).map OpcodeRow.descriptor = (opcodeTable.find? (fun r => r.opcode == b)).map OpcodeRow.descriptor := by
  decide +kernel

/-- The table has 151 rows with 151 different opcode bytes. -/
theorem opcodeTable_opcodes : opcodeTable.length = 151 ∧ (opcodeTable.map OpcodeRow.opcode).Nodup := by decide +kernel

/-- A row that is found stands in the table, under its own byte. -/
theorem findRow_some {b : Byte} {r : OpcodeRow} (h : findRow b = some r) : r ∈ opcodeTable ∧ r.opcode = b := by
  unfold findRow at h
  have h1 := List.mem_of_find?_eq_some h
  have h2 := List.find?_some h
  refine ⟨?_, by simpa using h2⟩
  simp only [opcodeTable, List.mem_append]
  unfold rowsNear at h1
  split_ifs at h1 <;> simp [h1]

/-- The row of an instruction's opcode byte rebuilds the instruction from its operand bytes, whatever follows them. -/
theorem findRow_opcode (i : Instr) : ∃ r, findRow i.opcode = some r ∧
    r.descriptor.mode.operandCount = i.operandBytes.length ∧
    ∀ rest, r.make ((i.operandBytes ++ rest).getD 0 0#8) ((i.operandBytes ++ rest).getD 1 0#8) = i := by
  cases i <;> refine ⟨_, rfl, rfl, fun _ => ?_⟩ <;> first
    | rfl
    | exact congrArg _ (joinBytes_hi_lo _)

/-- The descriptor of an instruction's opcode byte. -/
theorem descriptorOf_opcode (i : Instr) : ∃ d, descriptorOf i.opcode = some d ∧ d.mode = i.mode ∧
    d.operation = i.operation := by
  cases i <;> exact ⟨_, rfl, rfl, rfl⟩

/-- What a row of the table makes has the row's opcode byte and the operand bytes it was made from. -/
theorem rows_make : ∀ r ∈ opcodeTable, ∀ b1 b2 : Byte, (r.make b1 b2).opcode = r.opcode ∧
    (r.make b1 b2).operandBytes = [b1, b2].take r.descriptor.mode.operandCount := by
  simp only [opcodeTable, opcodeRows00, opcodeRows20, opcodeRows40, opcodeRows60, opcodeRows80, opcodeRowsA0, opcodeRowsC0,
    opcodeRowsE0, List.cons_append, List.nil_append]
  repeat' (first | exact List.forall_mem_nil _ | refine List.forall_mem_cons.mpr ⟨?_, ?_⟩)
  all_goals
    intro b1 b2
    first
      | exact ⟨rfl, rfl⟩
      | exact ⟨rfl, by simp [row2, Instr.operandBytes, Mode.operandCount]⟩

/-- No mode has more operand bytes than the two the decoder is shown behind the opcode. -/
theorem operandCount_le (m : Mode) : m.operandCount ≤ 2 := by cases m <;> simp [Mode.operandCount]

/-- An instruction is as long as its encoding. -/
theorem encode_length (i : Instr) : (encode i).length = i.length := by cases i <;> rfl

end Sys2Proof
end

