-- ==== Sys2Proof/Laws/PerInstr.lean ====
section
/-!
SUPPORT. One fact per instruction as syntax: R92's matrix admits it, and its encoding has the length R82 gives its mode.
-/

namespace Sys2Proof.Laws.TableShape

/-- The instruction's operation exists in its mode (R92), and its bytes are as many as its mode's length (R60, R82). -/
def Statement (i : Instr) : Prop := i.wellFormed = true ∧ (encode i).length = i.length

theorem ldaImm (v : Byte) : Statement (.ldaImm v) := ⟨rfl, rfl⟩
theorem ldaZp (z : Byte) : Statement (.ldaZp z) := ⟨rfl, rfl⟩
theorem ldaZpX (z : Byte) : Statement (.ldaZpX z) := ⟨rfl, rfl⟩
theorem ldaAbs (w : Word) : Statement (.ldaAbs w) := ⟨rfl, rfl⟩
theorem ldaAbsX (w : Word) : Statement (.ldaAbsX w) := ⟨rfl, rfl⟩
theorem ldaAbsY (w : Word) : Statement (.ldaAbsY w) := ⟨rfl, rfl⟩
theorem ldaIndX (z : Byte) : Statement (.ldaIndX z) := ⟨rfl, rfl⟩
theorem ldaIndY (z : Byte) : Statement (.ldaIndY z) := ⟨rfl, rfl⟩
theorem ldxImm (v : Byte) : Statement (.ldxImm v) := ⟨rfl, rfl⟩
theorem ldxZp (z : Byte) : Statement (.ldxZp z) := ⟨rfl, rfl⟩
theorem ldxZpY (z : Byte) : Statement (.ldxZpY z) := ⟨rfl, rfl⟩
theorem ldxAbs (w : Word) : Statement (.ldxAbs w) := ⟨rfl, rfl⟩
theorem ldxAbsY (w : Word) : Statement (.ldxAbsY w) := ⟨rfl, rfl⟩
theorem ldyImm (v : Byte) : Statement (.ldyImm v) := ⟨rfl, rfl⟩
theorem ldyZp (z : Byte) : Statement (.ldyZp z) := ⟨rfl, rfl⟩
theorem ldyZpX (z : Byte) : Statement (.ldyZpX z) := ⟨rfl, rfl⟩
theorem ldyAbs (w : Word) : Statement (.ldyAbs w) := ⟨rfl, rfl⟩
theorem ldyAbsX (w : Word) : Statement (.ldyAbsX w) := ⟨rfl, rfl⟩
theorem staZp (z : Byte) : Statement (.staZp z) := ⟨rfl, rfl⟩
theorem staZpX (z : Byte) : Statement (.staZpX z) := ⟨rfl, rfl⟩
theorem staAbs (w : Word) : Statement (.staAbs w) := ⟨rfl, rfl⟩
theorem staAbsX (w : Word) : Statement (.staAbsX w) := ⟨rfl, rfl⟩
theorem staAbsY (w : Word) : Statement (.staAbsY w) := ⟨rfl, rfl⟩
theorem staIndX (z : Byte) : Statement (.staIndX z) := ⟨rfl, rfl⟩
theorem staIndY (z : Byte) : Statement (.staIndY z) := ⟨rfl, rfl⟩
theorem stxZp (z : Byte) : Statement (.stxZp z) := ⟨rfl, rfl⟩
theorem stxZpY (z : Byte) : Statement (.stxZpY z) := ⟨rfl, rfl⟩
theorem stxAbs (w : Word) : Statement (.stxAbs w) := ⟨rfl, rfl⟩
theorem styZp (z : Byte) : Statement (.styZp z) := ⟨rfl, rfl⟩
theorem styZpX (z : Byte) : Statement (.styZpX z) := ⟨rfl, rfl⟩
theorem styAbs (w : Word) : Statement (.styAbs w) := ⟨rfl, rfl⟩
theorem tax : Statement (.tax) := ⟨rfl, rfl⟩
theorem tay : Statement (.tay) := ⟨rfl, rfl⟩
theorem txa : Statement (.txa) := ⟨rfl, rfl⟩
theorem tya : Statement (.tya) := ⟨rfl, rfl⟩
theorem tsx : Statement (.tsx) := ⟨rfl, rfl⟩
theorem txs : Statement (.txs) := ⟨rfl, rfl⟩
theorem pha : Statement (.pha) := ⟨rfl, rfl⟩
theorem php : Statement (.php) := ⟨rfl, rfl⟩
theorem pla : Statement (.pla) := ⟨rfl, rfl⟩
theorem plp : Statement (.plp) := ⟨rfl, rfl⟩
theorem andImm (v : Byte) : Statement (.andImm v) := ⟨rfl, rfl⟩
theorem andZp (z : Byte) : Statement (.andZp z) := ⟨rfl, rfl⟩
theorem andZpX (z : Byte) : Statement (.andZpX z) := ⟨rfl, rfl⟩
theorem andAbs (w : Word) : Statement (.andAbs w) := ⟨rfl, rfl⟩
theorem andAbsX (w : Word) : Statement (.andAbsX w) := ⟨rfl, rfl⟩
theorem andAbsY (w : Word) : Statement (.andAbsY w) := ⟨rfl, rfl⟩
theorem andIndX (z : Byte) : Statement (.andIndX z) := ⟨rfl, rfl⟩
theorem andIndY (z : Byte) : Statement (.andIndY z) := ⟨rfl, rfl⟩
theorem oraImm (v : Byte) : Statement (.oraImm v) := ⟨rfl, rfl⟩
theorem oraZp (z : Byte) : Statement (.oraZp z) := ⟨rfl, rfl⟩
theorem oraZpX (z : Byte) : Statement (.oraZpX z) := ⟨rfl, rfl⟩
theorem oraAbs (w : Word) : Statement (.oraAbs w) := ⟨rfl, rfl⟩
theorem oraAbsX (w : Word) : Statement (.oraAbsX w) := ⟨rfl, rfl⟩
theorem oraAbsY (w : Word) : Statement (.oraAbsY w) := ⟨rfl, rfl⟩
theorem oraIndX (z : Byte) : Statement (.oraIndX z) := ⟨rfl, rfl⟩
theorem oraIndY (z : Byte) : Statement (.oraIndY z) := ⟨rfl, rfl⟩
theorem eorImm (v : Byte) : Statement (.eorImm v) := ⟨rfl, rfl⟩
theorem eorZp (z : Byte) : Statement (.eorZp z) := ⟨rfl, rfl⟩
theorem eorZpX (z : Byte) : Statement (.eorZpX z) := ⟨rfl, rfl⟩
theorem eorAbs (w : Word) : Statement (.eorAbs w) := ⟨rfl, rfl⟩
theorem eorAbsX (w : Word) : Statement (.eorAbsX w) := ⟨rfl, rfl⟩
theorem eorAbsY (w : Word) : Statement (.eorAbsY w) := ⟨rfl, rfl⟩
theorem eorIndX (z : Byte) : Statement (.eorIndX z) := ⟨rfl, rfl⟩
theorem eorIndY (z : Byte) : Statement (.eorIndY z) := ⟨rfl, rfl⟩
theorem bitZp (z : Byte) : Statement (.bitZp z) := ⟨rfl, rfl⟩
theorem bitAbs (w : Word) : Statement (.bitAbs w) := ⟨rfl, rfl⟩
theorem adcImm (v : Byte) : Statement (.adcImm v) := ⟨rfl, rfl⟩
theorem adcZp (z : Byte) : Statement (.adcZp z) := ⟨rfl, rfl⟩
theorem adcZpX (z : Byte) : Statement (.adcZpX z) := ⟨rfl, rfl⟩
theorem adcAbs (w : Word) : Statement (.adcAbs w) := ⟨rfl, rfl⟩
theorem adcAbsX (w : Word) : Statement (.adcAbsX w) := ⟨rfl, rfl⟩
theorem adcAbsY (w : Word) : Statement (.adcAbsY w) := ⟨rfl, rfl⟩
theorem adcIndX (z : Byte) : Statement (.adcIndX z) := ⟨rfl, rfl⟩
theorem adcIndY (z : Byte) : Statement (.adcIndY z) := ⟨rfl, rfl⟩
theorem sbcImm (v : Byte) : Statement (.sbcImm v) := ⟨rfl, rfl⟩
theorem sbcZp (z : Byte) : Statement (.sbcZp z) := ⟨rfl, rfl⟩
theorem sbcZpX (z : Byte) : Statement (.sbcZpX z) := ⟨rfl, rfl⟩
theorem sbcAbs (w : Word) : Statement (.sbcAbs w) := ⟨rfl, rfl⟩
theorem sbcAbsX (w : Word) : Statement (.sbcAbsX w) := ⟨rfl, rfl⟩
theorem sbcAbsY (w : Word) : Statement (.sbcAbsY w) := ⟨rfl, rfl⟩
theorem sbcIndX (z : Byte) : Statement (.sbcIndX z) := ⟨rfl, rfl⟩
theorem sbcIndY (z : Byte) : Statement (.sbcIndY z) := ⟨rfl, rfl⟩
theorem cmpImm (v : Byte) : Statement (.cmpImm v) := ⟨rfl, rfl⟩
theorem cmpZp (z : Byte) : Statement (.cmpZp z) := ⟨rfl, rfl⟩
theorem cmpZpX (z : Byte) : Statement (.cmpZpX z) := ⟨rfl, rfl⟩
theorem cmpAbs (w : Word) : Statement (.cmpAbs w) := ⟨rfl, rfl⟩
theorem cmpAbsX (w : Word) : Statement (.cmpAbsX w) := ⟨rfl, rfl⟩
theorem cmpAbsY (w : Word) : Statement (.cmpAbsY w) := ⟨rfl, rfl⟩
theorem cmpIndX (z : Byte) : Statement (.cmpIndX z) := ⟨rfl, rfl⟩
theorem cmpIndY (z : Byte) : Statement (.cmpIndY z) := ⟨rfl, rfl⟩
theorem cpxImm (v : Byte) : Statement (.cpxImm v) := ⟨rfl, rfl⟩
theorem cpxZp (z : Byte) : Statement (.cpxZp z) := ⟨rfl, rfl⟩
theorem cpxAbs (w : Word) : Statement (.cpxAbs w) := ⟨rfl, rfl⟩
theorem cpyImm (v : Byte) : Statement (.cpyImm v) := ⟨rfl, rfl⟩
theorem cpyZp (z : Byte) : Statement (.cpyZp z) := ⟨rfl, rfl⟩
theorem cpyAbs (w : Word) : Statement (.cpyAbs w) := ⟨rfl, rfl⟩
theorem incZp (z : Byte) : Statement (.incZp z) := ⟨rfl, rfl⟩
theorem incZpX (z : Byte) : Statement (.incZpX z) := ⟨rfl, rfl⟩
theorem incAbs (w : Word) : Statement (.incAbs w) := ⟨rfl, rfl⟩
theorem incAbsX (w : Word) : Statement (.incAbsX w) := ⟨rfl, rfl⟩
theorem decZp (z : Byte) : Statement (.decZp z) := ⟨rfl, rfl⟩
theorem decZpX (z : Byte) : Statement (.decZpX z) := ⟨rfl, rfl⟩
theorem decAbs (w : Word) : Statement (.decAbs w) := ⟨rfl, rfl⟩
theorem decAbsX (w : Word) : Statement (.decAbsX w) := ⟨rfl, rfl⟩
theorem inx : Statement (.inx) := ⟨rfl, rfl⟩
theorem iny : Statement (.iny) := ⟨rfl, rfl⟩
theorem dex : Statement (.dex) := ⟨rfl, rfl⟩
theorem dey : Statement (.dey) := ⟨rfl, rfl⟩
theorem aslZp (z : Byte) : Statement (.aslZp z) := ⟨rfl, rfl⟩
theorem aslZpX (z : Byte) : Statement (.aslZpX z) := ⟨rfl, rfl⟩
theorem aslAbs (w : Word) : Statement (.aslAbs w) := ⟨rfl, rfl⟩
theorem aslAbsX (w : Word) : Statement (.aslAbsX w) := ⟨rfl, rfl⟩
theorem aslAcc : Statement (.aslAcc) := ⟨rfl, rfl⟩
theorem lsrZp (z : Byte) : Statement (.lsrZp z) := ⟨rfl, rfl⟩
theorem lsrZpX (z : Byte) : Statement (.lsrZpX z) := ⟨rfl, rfl⟩
theorem lsrAbs (w : Word) : Statement (.lsrAbs w) := ⟨rfl, rfl⟩
theorem lsrAbsX (w : Word) : Statement (.lsrAbsX w) := ⟨rfl, rfl⟩
theorem lsrAcc : Statement (.lsrAcc) := ⟨rfl, rfl⟩
theorem rolZp (z : Byte) : Statement (.rolZp z) := ⟨rfl, rfl⟩
theorem rolZpX (z : Byte) : Statement (.rolZpX z) := ⟨rfl, rfl⟩
theorem rolAbs (w : Word) : Statement (.rolAbs w) := ⟨rfl, rfl⟩
theorem rolAbsX (w : Word) : Statement (.rolAbsX w) := ⟨rfl, rfl⟩
theorem rolAcc : Statement (.rolAcc) := ⟨rfl, rfl⟩
theorem rorZp (z : Byte) : Statement (.rorZp z) := ⟨rfl, rfl⟩
theorem rorZpX (z : Byte) : Statement (.rorZpX z) := ⟨rfl, rfl⟩
theorem rorAbs (w : Word) : Statement (.rorAbs w) := ⟨rfl, rfl⟩
theorem rorAbsX (w : Word) : Statement (.rorAbsX w) := ⟨rfl, rfl⟩
theorem rorAcc : Statement (.rorAcc) := ⟨rfl, rfl⟩
theorem jmpAbs (w : Word) : Statement (.jmpAbs w) := ⟨rfl, rfl⟩
theorem jmpInd (p : Word) : Statement (.jmpInd p) := ⟨rfl, rfl⟩
theorem jsr (w : Word) : Statement (.jsr w) := ⟨rfl, rfl⟩
theorem rts : Statement (.rts) := ⟨rfl, rfl⟩
theorem bpl (o : Byte) : Statement (.bpl o) := ⟨rfl, rfl⟩
theorem bmi (o : Byte) : Statement (.bmi o) := ⟨rfl, rfl⟩
theorem bvc (o : Byte) : Statement (.bvc o) := ⟨rfl, rfl⟩
theorem bvs (o : Byte) : Statement (.bvs o) := ⟨rfl, rfl⟩
theorem bcc (o : Byte) : Statement (.bcc o) := ⟨rfl, rfl⟩
theorem bcs (o : Byte) : Statement (.bcs o) := ⟨rfl, rfl⟩
theorem bne (o : Byte) : Statement (.bne o) := ⟨rfl, rfl⟩
theorem beq (o : Byte) : Statement (.beq o) := ⟨rfl, rfl⟩
theorem clc : Statement (.clc) := ⟨rfl, rfl⟩
theorem sec : Statement (.sec) := ⟨rfl, rfl⟩
theorem cli : Statement (.cli) := ⟨rfl, rfl⟩
theorem sei : Statement (.sei) := ⟨rfl, rfl⟩
theorem cld : Statement (.cld) := ⟨rfl, rfl⟩
theorem sed : Statement (.sed) := ⟨rfl, rfl⟩
theorem clv : Statement (.clv) := ⟨rfl, rfl⟩
theorem nop : Statement (.nop) := ⟨rfl, rfl⟩
theorem brk : Statement (.brk) := ⟨rfl, rfl⟩
theorem rti : Statement (.rti) := ⟨rfl, rfl⟩

end Sys2Proof.Laws.TableShape
end

