-- ==== Sys2Proof/Laws/Ports.lean ====
section
/-!
SUPPORT. The port calls of each instruction after its fetch, written out (20_memory.md R45).
-/

namespace Sys2Proof.Machine

/-- The port calls of a read-modify-write form that stores `b`. -/
def modifyCalls (i : Instr) (b : Byte) (s : State) : List PortCall :=
  pointerReadsOf i s ++ [.read (eaOf i s) (s.mem.read (eaOf i s)), .write (eaOf i s) b]

/-- The port calls of a shift. -/
def shiftCalls (i : Instr) (r : ShiftResult) (s : State) : List PortCall :=
  if i.mode = .ACC then [] else modifyCalls i r.value s

/-- The port calls of an instruction after its own bytes, in order. -/
def callsOf (i : Instr) (s : State) : List PortCall :=
  match i.operation with
  | .LDA | .LDX | .LDY | .AND | .ORA | .EOR | .BIT | .ADC | .SBC | .CMP | .CPX | .CPY => operandReads i s
  | .STA => pointerReadsOf i s ++ [.write (eaOf i s) s.a]
  | .STX => pointerReadsOf i s ++ [.write (eaOf i s) s.x]
  | .STY => pointerReadsOf i s ++ [.write (eaOf i s) s.y]
  | .INC => modifyCalls i (operandOf i s + 1#8) s
  | .DEC => modifyCalls i (operandOf i s - 1#8) s
  | .ASL => shiftCalls i (shiftLeft (operandOf i s) s.c) s
  | .LSR => shiftCalls i (shiftRight (operandOf i s) s.c) s
  | .ROL => shiftCalls i (rotateLeft (operandOf i s) s.c) s
  | .ROR => shiftCalls i (rotateRight (operandOf i s) s.c) s
  | .PHA => [.write (stackAddress s.sp) s.a]
  | .PHP => [.write (stackAddress s.sp) (s.pByte true)]
  | .PLA | .PLP => [.read (stackAddress (s.sp + 1#8)) s.pulled]
  | .JMP => pointerReadsOf i s
  | .JSR => [.write (stackAddress s.sp) (hiByte (s.pc - 1#16)), .write (stackAddress (s.sp - 1#8)) (loByte (s.pc - 1#16))]
  | .RTS => [.read (stackAddress (s.sp + 1#8)) s.pulled, .read (stackAddress (s.sp + 1#8 + 1#8)) s.pull.pulled]
  | .BRK =>
    let t := State.pushWord (s.pc + 1#16) s
    let u := t.push (t.pByte true)
    [.write (stackAddress s.sp) (hiByte (s.pc + 1#16)), .write (stackAddress (s.sp - 1#8)) (loByte (s.pc + 1#16)),
      .write (stackAddress (s.sp - 1#8 - 1#8)) (s.pByte true), u.readCall irqBrkVector, u.readCall (irqBrkVector + 1#16)]
  | .RTI =>
    [.read (stackAddress (s.sp + 1#8)) s.pulled, .read (stackAddress (s.sp + 1#8 + 1#8)) s.pull.pulled,
      .read (stackAddress (s.sp + 1#8 + 1#8 + 1#8)) s.pull.pull.pulled]
  | .TAX | .TAY | .TXA | .TYA | .TSX | .TXS | .INX | .INY | .DEX | .DEY | .BPL | .BMI | .BVC | .BVS | .BCC | .BCS | .BNE
  | .BEQ | .CLC | .SEC | .CLI | .SEI | .CLD | .SED | .CLV | .NOP => []

theorem effectOf_bus (i : Instr) (s : State) : (effectOf i s).bus = s.bus ++ callsOf i s := by
  unfold effectOf callsOf
  cases hop : i.operation
  case BPL | BMI | BVC | BVS | BCC | BCS | BNE | BEQ => simp only [branchEffect]; split <;> simp
  case ASL | LSR | ROL | ROR =>
    simp only [shiftEffect, shiftCalls]
    split <;> simp [State.setShift, State.setNZ, modifyEffect, modifyCalls, resolved_eq, State.readCall, State.memRead]
  case BRK =>
    simp [State.breakSequence, State.interruptSequence, State.loadVector, State.pushWord, State.push, State.readCall,
      State.memRead, State.pByte]
  all_goals
    simp [storeEffect, stepEffect, modifyEffect, modifyCalls, resolved_eq, withOperandRead_eq, State.loadA, State.loadX,
      State.loadY, State.andA, State.oraA, State.eorA, State.bitTest, State.adc, State.sbc, State.setAlu, State.cmpA,
      State.cmpX, State.cmpY, State.compare, State.readCall, State.memRead, State.push, State.pull, State.pulled,
      State.callSubroutine, State.returnFromSubroutine, State.pushWord, State.pullWord, State.returnFromInterrupt, State.setP]

end Sys2Proof.Machine
end

