-- ==== Sys2Proof/Laws/Step.lean ====
section
/-!
SUPPORT. What the interrupt check, the fetch and the step can do, once each.
-/

namespace Sys2Proof.Machine

/-! ### The interrupt check -/

theorem serviceInterrupt_absent (s : State) (h : s.inputs = none) : s.serviceInterrupt = s := by
  simp [State.serviceInterrupt, h]

theorem serviceInterrupt_nmi (s : State) (r : InterruptInputs) (h : s.inputs = some r) (hn : r.nmiDue = true) :
    s.serviceInterrupt =
      (State.interruptSequence nmiVector false { s with inputs := some r.examined }).charge interruptCycles := by
  simp [State.serviceInterrupt, h, hn]

theorem serviceInterrupt_irq (s : State) (r : InterruptInputs) (h : s.inputs = some r) (hn : r.nmiDue = false)
    (hi : (r.irq && !s.i) = true) : s.serviceInterrupt =
      (State.interruptSequence irqBrkVector false { s with inputs := some r.examined }).charge interruptCycles := by
  simp [State.serviceInterrupt, h, hn, hi]

theorem serviceInterrupt_idle (s : State) (r : InterruptInputs) (h : s.inputs = some r) (hn : r.nmiDue = false)
    (hi : (r.irq && !s.i) = false) : s.serviceInterrupt = { s with inputs := some r.examined } := by
  simp [State.serviceInterrupt, h, hn, hi]

theorem interruptDue_some (s : State) (r : InterruptInputs) (h : s.inputs = some r) :
    interruptDue s = (r.nmiDue || (r.irq && !s.i)) := by
  rw [interruptDue, h]; rfl

/-- All that the interrupt check can do. -/
theorem serviceInterrupt_cases (s : State) :
    (s.inputs = none ∧ s.serviceInterrupt = s ∧ interruptDue s = false) ∨
    ∃ r, s.inputs = some r ∧
      ((interruptDue s = false ∧ s.serviceInterrupt = { s with inputs := some r.examined }) ∨
       (interruptDue s = true ∧ ∃ vector, (vector = nmiVector ∨ vector = irqBrkVector) ∧ s.serviceInterrupt =
         (State.interruptSequence vector false { s with inputs := some r.examined }).charge interruptCycles)) := by
  cases h : s.inputs with
  | none => exact .inl ⟨rfl, serviceInterrupt_absent s h, by simp [interruptDue, h]⟩
  | some r =>
    refine .inr ⟨r, rfl, ?_⟩
    rw [interruptDue_some s r h]
    cases hn : r.nmiDue
    · cases hi : (r.irq && !s.i)
      · exact .inl ⟨rfl, serviceInterrupt_idle s r h hn hi⟩
      · exact .inr ⟨rfl, _, .inr rfl, serviceInterrupt_irq s r h hn hi⟩
    · exact .inr ⟨rfl, _, .inl rfl, serviceInterrupt_nmi s r h hn⟩

/-! ### The request inputs the host presents -/

@[simp] theorem present_a (irq nmi : Bool) (s : State) : (s.present irq nmi).a = s.a := rfl
@[simp] theorem present_x (irq nmi : Bool) (s : State) : (s.present irq nmi).x = s.x := rfl
@[simp] theorem present_y (irq nmi : Bool) (s : State) : (s.present irq nmi).y = s.y := rfl
@[simp] theorem present_sp (irq nmi : Bool) (s : State) : (s.present irq nmi).sp = s.sp := rfl
@[simp] theorem present_pc (irq nmi : Bool) (s : State) : (s.present irq nmi).pc = s.pc := rfl
@[simp] theorem present_n (irq nmi : Bool) (s : State) : (s.present irq nmi).n = s.n := rfl
@[simp] theorem present_v (irq nmi : Bool) (s : State) : (s.present irq nmi).v = s.v := rfl
@[simp] theorem present_d (irq nmi : Bool) (s : State) : (s.present irq nmi).d = s.d := rfl
@[simp] theorem present_i (irq nmi : Bool) (s : State) : (s.present irq nmi).i = s.i := rfl
@[simp] theorem present_z (irq nmi : Bool) (s : State) : (s.present irq nmi).z = s.z := rfl
@[simp] theorem present_c (irq nmi : Bool) (s : State) : (s.present irq nmi).c = s.c := rfl
@[simp] theorem present_mem (irq nmi : Bool) (s : State) : (s.present irq nmi).mem = s.mem := rfl
@[simp] theorem present_cycles (irq nmi : Bool) (s : State) : (s.present irq nmi).cycles = s.cycles := rfl
@[simp] theorem present_bus (irq nmi : Bool) (s : State) : (s.present irq nmi).bus = s.bus := rfl
@[simp] theorem present_inputs (irq nmi : Bool) (s : State) :
    (s.present irq nmi).inputs = s.inputs.map (fun r => { r with irq := irq, nmi := nmi }) := rfl

/-- Where there are no inputs the host presents nothing. -/
theorem present_absent (irq nmi : Bool) (s : State) (h : s.inputs = none) : s.present irq nmi = s := by
  cases s; cases h; rfl

/-- Presenting the levels that stand already changes nothing. -/
theorem present_same (s : State) (r : InterruptInputs) (h : s.inputs = some r) : s.present r.irq r.nmi = s := by
  cases s; cases h; rfl

/-! ### The fetch -/

/-- Fetching `k` bytes reads them in address order and moves the program counter behind them. -/
theorem fetchBytes_eq (k : Nat) : ∀ s : State, s.fetchBytes k =
    { s with
      pc := s.pc + BitVec.ofNat 16 k
      bus := s.bus ++ (List.range k).map fun j =>
        .read (s.pc + BitVec.ofNat 16 j) (s.mem.read (s.pc + BitVec.ofNat 16 j)) } := by
  induction k with
  | zero => intro s; simp [State.fetchBytes]
  | succ k ih =>
    intro s
    rw [State.fetchBytes, ih, List.range_succ_eq_map]
    have e : ∀ j, s.pc + 1#16 + BitVec.ofNat 16 j = s.pc + BitVec.ofNat 16 (j + 1) := by
      intro j; rw [BitVec.add_assoc]; congr 1; rw [Nat.add_comm, BitVec.ofNat_add]
    simp [State.fetch8, State.readPort, State.record, State.readCall, State.memRead, e, Function.comp_def]

/-- The three bytes the decoder is shown. -/
def shownBytes (s : State) : List Byte := [s.mem.read s.pc, s.mem.read (s.pc + 1#16), s.mem.read (s.pc + 2#16)]

theorem fetch_instr (s : State) (i : Instr) (rest : List Byte) (h : decode (shownBytes s) = .ok (i, rest)) :
    s.fetch = .instr i (s.fetchBytes i.length) := by
  unfold State.fetch
  rw [show [s.memRead s.pc, s.memRead (s.pc + 1#16), s.memRead (s.pc + 2#16)] = shownBytes s from rfl, h]

/-- The decoder refuses what it is shown exactly when the first byte is an unknown opcode. -/
theorem decode_shownBytes (s : State) : descriptorOf (s.mem.read s.pc) = none ∨
    ∃ i rest, decode (shownBytes s) = .ok (i, rest) := by
  cases h : findRow (s.mem.read s.pc) with
  | none => exact .inl (by simp [descriptorOf, h])
  | some r =>
    have := operandCount_le r.descriptor.mode
    exact .inr (by simp [shownBytes, decode, h, Nat.not_lt.mpr this])

theorem fetch_unknown (s : State) (h : descriptorOf (s.mem.read s.pc) = none) :
    s.fetch = .unknown (s.mem.read s.pc) s.pc := by
  simp only [descriptorOf, Option.map_eq_none_iff] at h
  simp [State.fetch, State.memRead, decode, h]

/-! ### The step -/

/-- All that a step can do: `UnknownOpcode` after the interrupt check, or `exec` of the decoded instruction. -/
theorem step_cases (s : State) :
    (descriptorOf (s.serviceInterrupt.mem.read s.serviceInterrupt.pc) = none ∧
      step s = .fault (.unknownOpcode (s.serviceInterrupt.mem.read s.serviceInterrupt.pc) s.serviceInterrupt.pc)) ∨
    ∃ i rest, decode (shownBytes s.serviceInterrupt) = .ok (i, rest) ∧
      step s = exec i (s.serviceInterrupt.fetchBytes i.length) := by
  rcases decode_shownBytes s.serviceInterrupt with h | ⟨i, rest, h⟩
  · exact .inl ⟨h, by rw [step, fetch_unknown _ h]⟩
  · exact .inr ⟨i, rest, h, by rw [step, fetch_instr _ i rest h]⟩

/-- A step that gives a next state ran one instruction. -/
theorem step_next {s t : State} (h : step s = .next t) : ∃ i rest, decode (shownBytes s.serviceInterrupt) = .ok (i, rest) ∧
    exec i (s.serviceInterrupt.fetchBytes i.length) = .next t := by
  rcases step_cases s with ⟨-, h'⟩ | ⟨i, rest, hd, h'⟩
  · rw [h'] at h; cases h
  · exact ⟨i, rest, hd, h' ▸ h⟩

/-! ### Effects -/

/-- An effect costs nothing by itself: the cost is charged by `exec_eq`. -/
theorem effectOf_cycles (i : Instr) (s : State) : (effectOf i s).cycles = s.cycles := by
  unfold effectOf
  cases i.operation
  case BPL | BMI | BVC | BVS | BCC | BCS | BNE | BEQ => simp only [branchEffect]; split <;> rfl
  case ASL | LSR | ROL | ROR =>
    simp only [shiftEffect]; split <;> simp [State.setShift, modifyEffect, resolved_eq]
  all_goals
    simp [storeEffect, stepEffect, modifyEffect, resolved_eq, withOperandRead_eq, State.loadA, State.loadX, State.loadY,
      State.andA, State.oraA, State.eorA, State.bitTest, State.adc, State.sbc, State.cmpA, State.cmpX, State.cmpY,
      State.compare, State.setAlu, State.push_eq, State.pull_eq, State.callSubroutine, State.pushWord, State.pullWord,
      State.returnFromSubroutine, State.breakSequence, State.interruptSequence, State.loadVector,
      State.returnFromInterrupt, State.setP]

/-- No instruction writes the interrupt inputs. -/
theorem effectOf_inputs (i : Instr) (s : State) : (effectOf i s).inputs = s.inputs := by
  unfold effectOf
  cases i.operation
  case BPL | BMI | BVC | BVS | BCC | BCS | BNE | BEQ => simp only [branchEffect]; split <;> rfl
  case ASL | LSR | ROL | ROR =>
    simp only [shiftEffect]; split <;> simp [State.setShift, modifyEffect, resolved_eq]
  all_goals
    simp [storeEffect, stepEffect, modifyEffect, resolved_eq, withOperandRead_eq, State.loadA, State.loadX, State.loadY,
      State.andA, State.oraA, State.eorA, State.bitTest, State.adc, State.sbc, State.cmpA, State.cmpX, State.cmpY,
      State.compare, State.setAlu, State.push_eq, State.pull_eq, State.callSubroutine, State.pushWord, State.pullWord,
      State.returnFromSubroutine, State.breakSequence, State.interruptSequence, State.loadVector,
      State.returnFromInterrupt, State.setP]

/-- What a step makes of the interrupt inputs: they have been examined, and the levels presented are kept. -/
theorem step_inputs {s t : State} (h : step s = .next t) : t.inputs = s.inputs.map InterruptInputs.examined := by
  obtain ⟨i, rest, -, hx⟩ := step_next h
  rw [exec_eq] at hx
  have ht : t.inputs = s.serviceInterrupt.inputs := by
    cases hx
    simp [effectOf_inputs, fetchBytes_eq]
  rw [ht]
  rcases serviceInterrupt_cases s with ⟨hn, hs, -⟩ | ⟨r, hr, ⟨-, hs⟩ | ⟨-, vector, -, hs⟩⟩
  · rw [hs, hn]; rfl
  · rw [hs, hr]; rfl
  · rw [hs, hr]; rfl

end Sys2Proof.Machine
end

