-- ==== Sys2Proof/Tests/Slice0.lean ====
section
/-!
SUPPORT. The model's own tests. Every expected value comes from the spec: the words from the encodings of 30_encoding.md, the
results from the vectors of 95_test_vectors.md (the id stands in the docstring). The last part shows, for every obligation
with hypotheses, concrete values that meet them.
-/

namespace Sys2Proof.Tests

open Sys2Proof Sys2Proof.Machine

/-! ### Builders -/

/-- Place bytes at rising addresses. -/
def putBytes : Word → List Byte → Memory → Memory
  | _, [], m => m
  | address, b :: rest, m => putBytes (address + 1#16) rest (m.write address b)

/-- The default start state of the vectors (95, "Conventions of the tables"): the bytes at `pc`, and the bytes listed. -/
def boot (pc : Word) (code : List Byte) (cells : List (Word × Byte)) : State :=
  State.new 0x00#8 0x00#8 0x00#8 pc false (cells.foldl (fun m p => m.write p.1 p.2) (putBytes pc code []))

/-- The state after one step; after an error, the state it leaves. -/
def after (s : State) : State := (runSteps 1 s).state

/-! ### Well-formedness: an ill-formed pair for each row of the matrix of 30_encoding.md R92 that has gaps -/

theorem test_sta_has_no_immediate : Operation.admits .STA .IMM = false := by decide
theorem test_stx_has_no_zpx : Operation.admits .STX .ZPX = false := by decide
theorem test_ldx_has_no_absx : Operation.admits .LDX .ABSX = false := by decide
theorem test_ldy_has_no_absy : Operation.admits .LDY .ABSY = false := by decide
theorem test_bit_has_no_immediate : Operation.admits .BIT .IMM = false := by decide
theorem test_inc_has_no_accumulator : Operation.admits .INC .ACC = false := by decide
theorem test_jsr_has_no_indirect : Operation.admits .JSR .IND = false := by decide
theorem test_cpx_has_no_zpx : Operation.admits .CPX .ZPX = false := by decide
theorem test_jmp_has_indirect : Operation.admits .JMP .IND = true := by decide
theorem test_row_is_well_formed : (Instr.ldxZpY 0x10#8).wellFormed = true := by decide

/-! ### The decoder refuses by name -/

theorem test_decode_nothing : decode [] = .error .noBytes := by decide
theorem test_decode_unknown : decode [0x02#8, 0x00#8, 0x00#8] = .error (.unknownOpcode 0x02#8) := by decide
theorem test_decode_truncated : decode [0xAD#8, 0x34#8] = .error (.truncated 0xAD#8) := by decide

/-- The table's bit numbering: the opcode byte is bits 7..0, a missing operand byte is 0. -/
theorem test_decodeTableWord : decodeTableWord 8 0xA9 = some (.ldaImm 0x00#8) ∧
    decodeTableWord 16 0x42A9 = some (.ldaImm 0x42#8) ∧ decodeTableWord 24 0x1234AD = some (.ldaAbs 0x1234#16) ∧
    decodeTableWord 8 0x02 = none := by decide

/-! ### Checksums of the opcode table (section 2.12) -/

theorem test_checksum_opcodes : (opcodeTable.map fun r => r.opcode.toNat).sum = 19563 ∧ opcodeTable.length = 151 := by
  decide +kernel
theorem test_checksum_cycles : (opcodeTable.map fun r => r.descriptor.baseCycles).sum = 589 := by decide +kernel
theorem test_checksum_lengths : (opcodeTable.map fun r => r.descriptor.mode.length).sum = 321 := by decide +kernel
theorem test_checksum_penalties :
    (opcodeTable.filter fun r => r.descriptor.pageCrossPenalty).length = 23 := by decide +kernel
theorem test_checksum_modes :
    ([.IMP, .ACC, .IMM, .ZP, .ZPX, .ZPY, .REL, .ABS, .ABSX, .ABSY, .IND, .INDX, .INDY] : List Mode).map
      (fun m => (opcodeTable.filter fun r => r.descriptor.mode == m).length) =
    [25, 4, 11, 21, 16, 2, 8, 23, 15, 9, 1, 8, 8] := by decide +kernel
theorem test_checksum_unknown : (unknownOpcodes.map BitVec.toNat).sum = 13077 := by decide +kernel

/-! ### Decoding: a word written out from the encoding of every row of the spec (30_encoding.md R60, R65, R91, R92) -/

/-- Each byte string decodes, whole, to the instruction beside it, and that instruction encodes to it. -/
def agree (l : List (List Byte × Instr)) : Bool :=
  l.all fun p => decide (decode p.1 = .ok (p.2, [])) && decide (encode p.2 = p.1)

theorem test_decode_loads_and_stores_1 : agree [
    ([0x81#8, 0x9C#8], .staIndX 0x9C#8), ([0x84#8, 0x9C#8], .styZp 0x9C#8), ([0x85#8, 0x9C#8], .staZp 0x9C#8),
    ([0x86#8, 0x9C#8], .stxZp 0x9C#8), ([0x8C#8, 0x34#8, 0x12#8], .styAbs 0x1234#16),
    ([0x8D#8, 0x34#8, 0x12#8], .staAbs 0x1234#16), ([0x8E#8, 0x34#8, 0x12#8], .stxAbs 0x1234#16),
    ([0x91#8, 0x9C#8], .staIndY 0x9C#8), ([0x94#8, 0x9C#8], .styZpX 0x9C#8), ([0x95#8, 0x9C#8], .staZpX 0x9C#8),
    ([0x96#8, 0x9C#8], .stxZpY 0x9C#8), ([0x99#8, 0x34#8, 0x12#8], .staAbsY 0x1234#16),
    ([0x9D#8, 0x34#8, 0x12#8], .staAbsX 0x1234#16)] = true := by decide +kernel

theorem test_decode_loads_and_stores_2 : agree [
    ([0xA0#8, 0x9C#8], .ldyImm 0x9C#8), ([0xA1#8, 0x9C#8], .ldaIndX 0x9C#8), ([0xA2#8, 0x9C#8], .ldxImm 0x9C#8),
    ([0xA4#8, 0x9C#8], .ldyZp 0x9C#8), ([0xA5#8, 0x9C#8], .ldaZp 0x9C#8), ([0xA6#8, 0x9C#8], .ldxZp 0x9C#8),
    ([0xA9#8, 0x9C#8], .ldaImm 0x9C#8), ([0xAC#8, 0x34#8, 0x12#8], .ldyAbs 0x1234#16),
    ([0xAD#8, 0x34#8, 0x12#8], .ldaAbs 0x1234#16), ([0xAE#8, 0x34#8, 0x12#8], .ldxAbs 0x1234#16),
    ([0xB1#8, 0x9C#8], .ldaIndY 0x9C#8), ([0xB4#8, 0x9C#8], .ldyZpX 0x9C#8), ([0xB5#8, 0x9C#8], .ldaZpX 0x9C#8)] = true := by decide +kernel

theorem test_decode_loads_and_stores_3 : agree [
    ([0xB6#8, 0x9C#8], .ldxZpY 0x9C#8), ([0xB9#8, 0x34#8, 0x12#8], .ldaAbsY 0x1234#16),
    ([0xBC#8, 0x34#8, 0x12#8], .ldyAbsX 0x1234#16), ([0xBD#8, 0x34#8, 0x12#8], .ldaAbsX 0x1234#16),
    ([0xBE#8, 0x34#8, 0x12#8], .ldxAbsY 0x1234#16)] = true := by decide +kernel

theorem test_decode_transfers_and_stack_1 : agree [
    ([0x08#8], .php), ([0x28#8], .plp), ([0x48#8], .pha), ([0x68#8], .pla), ([0x8A#8], .txa), ([0x98#8], .tya),
    ([0x9A#8], .txs), ([0xA8#8], .tay), ([0xAA#8], .tax), ([0xBA#8], .tsx)] = true := by decide +kernel

theorem test_decode_logic_and_arithmetic_1 : agree [
    ([0x01#8, 0x9C#8], .oraIndX 0x9C#8), ([0x05#8, 0x9C#8], .oraZp 0x9C#8), ([0x09#8, 0x9C#8], .oraImm 0x9C#8),
    ([0x0D#8, 0x34#8, 0x12#8], .oraAbs 0x1234#16), ([0x11#8, 0x9C#8], .oraIndY 0x9C#8),
    ([0x15#8, 0x9C#8], .oraZpX 0x9C#8), ([0x19#8, 0x34#8, 0x12#8], .oraAbsY 0x1234#16),
    ([0x1D#8, 0x34#8, 0x12#8], .oraAbsX 0x1234#16), ([0x21#8, 0x9C#8], .andIndX 0x9C#8),
    ([0x24#8, 0x9C#8], .bitZp 0x9C#8), ([0x25#8, 0x9C#8], .andZp 0x9C#8), ([0x29#8, 0x9C#8], .andImm 0x9C#8),
    ([0x2C#8, 0x34#8, 0x12#8], .bitAbs 0x1234#16)] = true := by decide +kernel

theorem test_decode_logic_and_arithmetic_2 : agree [
    ([0x2D#8, 0x34#8, 0x12#8], .andAbs 0x1234#16), ([0x31#8, 0x9C#8], .andIndY 0x9C#8),
    ([0x35#8, 0x9C#8], .andZpX 0x9C#8), ([0x39#8, 0x34#8, 0x12#8], .andAbsY 0x1234#16),
    ([0x3D#8, 0x34#8, 0x12#8], .andAbsX 0x1234#16), ([0x41#8, 0x9C#8], .eorIndX 0x9C#8),
    ([0x45#8, 0x9C#8], .eorZp 0x9C#8), ([0x49#8, 0x9C#8], .eorImm 0x9C#8),
    ([0x4D#8, 0x34#8, 0x12#8], .eorAbs 0x1234#16), ([0x51#8, 0x9C#8], .eorIndY 0x9C#8),
    ([0x55#8, 0x9C#8], .eorZpX 0x9C#8), ([0x59#8, 0x34#8, 0x12#8], .eorAbsY 0x1234#16),
    ([0x5D#8, 0x34#8, 0x12#8], .eorAbsX 0x1234#16)] = true := by decide +kernel

theorem test_decode_logic_and_arithmetic_3 : agree [
    ([0x61#8, 0x9C#8], .adcIndX 0x9C#8), ([0x65#8, 0x9C#8], .adcZp 0x9C#8), ([0x69#8, 0x9C#8], .adcImm 0x9C#8),
    ([0x6D#8, 0x34#8, 0x12#8], .adcAbs 0x1234#16), ([0x71#8, 0x9C#8], .adcIndY 0x9C#8),
    ([0x75#8, 0x9C#8], .adcZpX 0x9C#8), ([0x79#8, 0x34#8, 0x12#8], .adcAbsY 0x1234#16),
    ([0x7D#8, 0x34#8, 0x12#8], .adcAbsX 0x1234#16), ([0xC0#8, 0x9C#8], .cpyImm 0x9C#8),
    ([0xC1#8, 0x9C#8], .cmpIndX 0x9C#8), ([0xC4#8, 0x9C#8], .cpyZp 0x9C#8), ([0xC5#8, 0x9C#8], .cmpZp 0x9C#8),
    ([0xC9#8, 0x9C#8], .cmpImm 0x9C#8)] = true := by decide +kernel

theorem test_decode_logic_and_arithmetic_4 : agree [
    ([0xCC#8, 0x34#8, 0x12#8], .cpyAbs 0x1234#16), ([0xCD#8, 0x34#8, 0x12#8], .cmpAbs 0x1234#16),
    ([0xD1#8, 0x9C#8], .cmpIndY 0x9C#8), ([0xD5#8, 0x9C#8], .cmpZpX 0x9C#8),
    ([0xD9#8, 0x34#8, 0x12#8], .cmpAbsY 0x1234#16), ([0xDD#8, 0x34#8, 0x12#8], .cmpAbsX 0x1234#16),
    ([0xE0#8, 0x9C#8], .cpxImm 0x9C#8), ([0xE1#8, 0x9C#8], .sbcIndX 0x9C#8), ([0xE4#8, 0x9C#8], .cpxZp 0x9C#8),
    ([0xE5#8, 0x9C#8], .sbcZp 0x9C#8), ([0xE9#8, 0x9C#8], .sbcImm 0x9C#8),
    ([0xEC#8, 0x34#8, 0x12#8], .cpxAbs 0x1234#16), ([0xED#8, 0x34#8, 0x12#8], .sbcAbs 0x1234#16)] = true := by decide +kernel

theorem test_decode_logic_and_arithmetic_5 : agree [
    ([0xF1#8, 0x9C#8], .sbcIndY 0x9C#8), ([0xF5#8, 0x9C#8], .sbcZpX 0x9C#8),
    ([0xF9#8, 0x34#8, 0x12#8], .sbcAbsY 0x1234#16), ([0xFD#8, 0x34#8, 0x12#8], .sbcAbsX 0x1234#16)] = true := by decide +kernel

theorem test_decode_incdec_and_shifts_1 : agree [
    ([0x06#8, 0x9C#8], .aslZp 0x9C#8), ([0x0A#8], .aslAcc), ([0x0E#8, 0x34#8, 0x12#8], .aslAbs 0x1234#16),
    ([0x16#8, 0x9C#8], .aslZpX 0x9C#8), ([0x1E#8, 0x34#8, 0x12#8], .aslAbsX 0x1234#16),
    ([0x26#8, 0x9C#8], .rolZp 0x9C#8), ([0x2A#8], .rolAcc), ([0x2E#8, 0x34#8, 0x12#8], .rolAbs 0x1234#16),
    ([0x36#8, 0x9C#8], .rolZpX 0x9C#8), ([0x3E#8, 0x34#8, 0x12#8], .rolAbsX 0x1234#16),
    ([0x46#8, 0x9C#8], .lsrZp 0x9C#8), ([0x4A#8], .lsrAcc), ([0x4E#8, 0x34#8, 0x12#8], .lsrAbs 0x1234#16)] = true := by decide +kernel

theorem test_decode_incdec_and_shifts_2 : agree [
    ([0x56#8, 0x9C#8], .lsrZpX 0x9C#8), ([0x5E#8, 0x34#8, 0x12#8], .lsrAbsX 0x1234#16),
    ([0x66#8, 0x9C#8], .rorZp 0x9C#8), ([0x6A#8], .rorAcc), ([0x6E#8, 0x34#8, 0x12#8], .rorAbs 0x1234#16),
    ([0x76#8, 0x9C#8], .rorZpX 0x9C#8), ([0x7E#8, 0x34#8, 0x12#8], .rorAbsX 0x1234#16), ([0x88#8], .dey),
    ([0xC6#8, 0x9C#8], .decZp 0x9C#8), ([0xC8#8], .iny), ([0xCA#8], .dex),
    ([0xCE#8, 0x34#8, 0x12#8], .decAbs 0x1234#16), ([0xD6#8, 0x9C#8], .decZpX 0x9C#8)] = true := by decide +kernel

theorem test_decode_incdec_and_shifts_3 : agree [
    ([0xDE#8, 0x34#8, 0x12#8], .decAbsX 0x1234#16), ([0xE6#8, 0x9C#8], .incZp 0x9C#8), ([0xE8#8], .inx),
    ([0xEE#8, 0x34#8, 0x12#8], .incAbs 0x1234#16), ([0xF6#8, 0x9C#8], .incZpX 0x9C#8),
    ([0xFE#8, 0x34#8, 0x12#8], .incAbsX 0x1234#16)] = true := by decide +kernel

theorem test_decode_control_flow_1 : agree [
    ([0x10#8, 0x9C#8], .bpl 0x9C#8), ([0x20#8, 0x34#8, 0x12#8], .jsr 0x1234#16), ([0x30#8, 0x9C#8], .bmi 0x9C#8),
    ([0x4C#8, 0x34#8, 0x12#8], .jmpAbs 0x1234#16), ([0x50#8, 0x9C#8], .bvc 0x9C#8), ([0x60#8], .rts),
    ([0x6C#8, 0x34#8, 0x12#8], .jmpInd 0x1234#16), ([0x70#8, 0x9C#8], .bvs 0x9C#8),
    ([0x90#8, 0x9C#8], .bcc 0x9C#8), ([0xB0#8, 0x9C#8], .bcs 0x9C#8), ([0xD0#8, 0x9C#8], .bne 0x9C#8),
    ([0xF0#8, 0x9C#8], .beq 0x9C#8)] = true := by decide +kernel

theorem test_decode_flags_and_system_1 : agree [
    ([0x00#8], .brk), ([0x18#8], .clc), ([0x38#8], .sec), ([0x40#8], .rti), ([0x58#8], .cli), ([0x78#8], .sei),
    ([0xB8#8], .clv), ([0xD8#8], .cld), ([0xEA#8], .nop), ([0xF8#8], .sed)] = true := by decide +kernel

/-! ### Addressing modes (section 2.1) -/

/-- A-3: ZPX. -/
theorem test_A_3 :
    let t := after ({ boot 0x0600#16 [0xB5#8, 0x10#8] [(0x0015#16, 0x44#8)] with x := 0x05#8 })
    (t.a, t.pc, t.pByte false, t.cycles) = (0x44#8, 0x0602#16, 0x24#8, 4) ∧
    t.bus.drop 2 = [.read 0x0015#16 0x44#8] := by decide

/-- A-4: ZPX wraps in page 0: reads 0x0001, not 0x0101. -/
theorem test_A_4 :
    let t := after ({ boot 0x0600#16 [0xB5#8, 0xFF#8] [(0x0001#16, 0x55#8), (0x0101#16, 0xEE#8)] with x := 0x02#8 })
    (t.a, t.pc, t.pByte false, t.cycles) = (0x55#8, 0x0602#16, 0x24#8, 4) ∧
    t.bus.drop 2 = [.read 0x0001#16 0x55#8] := by decide

/-- A-5: ZPY wraps in page 0. -/
theorem test_A_5 :
    let t := after ({ boot 0x0600#16 [0xB6#8, 0xFF#8] [(0x0001#16, 0x66#8), (0x0101#16, 0xEE#8)] with y := 0x02#8 })
    (t.x, t.pc, t.pByte false, t.cycles) = (0x66#8, 0x0602#16, 0x24#8, 4) ∧
    t.bus.drop 2 = [.read 0x0001#16 0x66#8] := by decide

/-- A-8: ABSX cross: 5 cycles. -/
theorem test_A_8 :
    let t := after ({ boot 0x0600#16 [0xBD#8, 0xFF#8, 0x12#8] [(0x1300#16, 0x22#8)] with x := 0x01#8 })
    (t.a, t.pc, t.pByte false, t.cycles) = (0x22#8, 0x0603#16, 0x24#8, 5) ∧
    t.bus.drop 3 = [.read 0x1300#16 0x22#8] := by decide

/-- A-9: ABSY cross: 5 cycles. -/
theorem test_A_9 :
    let t := after ({ boot 0x0600#16 [0xB9#8, 0x80#8, 0x12#8] [(0x1300#16, 0x23#8)] with y := 0x80#8 })
    (t.a, t.pc, t.pByte false, t.cycles) = (0x23#8, 0x0603#16, 0x24#8, 5) ∧
    t.bus.drop 3 = [.read 0x1300#16 0x23#8] := by decide

/-- A-10: ABSX wraps mod 65536 to 0x0001; page differs from base, 5 cycles. -/
theorem test_A_10 :
    let t := after ({ boot 0x0600#16 [0xBD#8, 0xFF#8, 0xFF#8] [(0x0001#16, 0x24#8)] with x := 0x02#8 })
    (t.a, t.pc, t.pByte false, t.cycles) = (0x24#8, 0x0603#16, 0x24#8, 5) ∧
    t.bus.drop 3 = [.read 0x0001#16 0x24#8] := by decide

/-- A-12: INDX pointer at 0xFF: high byte from 0x0000. -/
theorem test_A_12 :
    let t := after ({ boot 0x0600#16 [0xA1#8, 0xFE#8] [(0x0000#16, 0x40#8), (0x00FF#16, 0x00#8), (0x0100#16, 0xEE#8), (0x4000#16, 0x5A#8)] with x := 0x01#8 })
    (t.a, t.pc, t.pByte false, t.cycles) = (0x5A#8, 0x0602#16, 0x24#8, 6) ∧
    t.bus.drop 2 = [.read 0x00FF#16 0x00#8, .read 0x0000#16 0x40#8, .read 0x4000#16 0x5A#8] := by decide

/-- A-13: INDX index sum wraps: pointer at 0x01. -/
theorem test_A_13 :
    let t := after ({ boot 0x0600#16 [0xA1#8, 0xFF#8] [(0x0001#16, 0x10#8), (0x0002#16, 0x20#8), (0x2010#16, 0x6B#8)] with x := 0x02#8 })
    (t.a, t.pc, t.pByte false, t.cycles) = (0x6B#8, 0x0602#16, 0x24#8, 6) ∧
    t.bus.drop 2 = [.read 0x0001#16 0x10#8, .read 0x0002#16 0x20#8, .read 0x2010#16 0x6B#8] := by decide

/-- A-15: INDY cross: 6 cycles. -/
theorem test_A_15 :
    let t := after ({ boot 0x0600#16 [0xB1#8, 0x20#8] [(0x0020#16, 0xF8#8), (0x0021#16, 0x30#8), (0x3108#16, 0x7D#8)] with y := 0x10#8 })
    (t.a, t.pc, t.pByte false, t.cycles) = (0x7D#8, 0x0602#16, 0x24#8, 6) ∧
    t.bus.drop 2 = [.read 0x0020#16 0xF8#8, .read 0x0021#16 0x30#8, .read 0x3108#16 0x7D#8] := by decide

/-- A-16: INDY pointer at 0xFF: high byte from 0x0000. -/
theorem test_A_16 :
    let t := after ({ boot 0x0600#16 [0xB1#8, 0xFF#8] [(0x0000#16, 0x50#8), (0x00FF#16, 0x00#8), (0x0100#16, 0xEE#8), (0x5001#16, 0x0E#8)] with y := 0x01#8 })
    (t.a, t.pc, t.pByte false, t.cycles) = (0x0E#8, 0x0602#16, 0x24#8, 5) ∧
    t.bus.drop 2 = [.read 0x00FF#16 0x00#8, .read 0x0000#16 0x50#8, .read 0x5001#16 0x0E#8] := by decide

/-- A-18: IND quirk: high byte from 0x0200, not 0x0300. -/
theorem test_A_18 :
    let t := after (boot 0x0600#16 [0x6C#8, 0xFF#8, 0x02#8] [(0x0200#16, 0x12#8), (0x02FF#16, 0x34#8), (0x0300#16, 0x56#8)])
    (t.pc, t.pByte false, t.cycles) = (0x1234#16, 0x24#8, 5) ∧
    t.bus.drop 3 = [.read 0x02FF#16 0x34#8, .read 0x0200#16 0x12#8] := by decide

/-- A-19: opcode at 0xFFFF, operand fetched from 0x0000; PC wraps to 0x0001. -/
theorem test_A_19 :
    let t := after (boot 0xFFFF#16 [0xA9#8, 0x01#8] [])
    (t.a, t.pc, t.pByte false, t.cycles) = (0x01#8, 0x0001#16, 0x24#8, 2) ∧
    t.bus.drop 2 = [] := by decide

/-- A-20: STA ABSX with cross: fixed 5 cycles, no penalty. -/
theorem test_A_20 :
    let t := after ({ boot 0x0600#16 [0x9D#8, 0xFF#8, 0x12#8] [] with a := 0x3C#8, x := 0x01#8 })
    (t.pc, t.pByte false, t.cycles) = (0x0603#16, 0x24#8, 5) ∧ t.mem.read 0x1300#16 = 0x3C#8 ∧
    t.bus.drop 3 = [.write 0x1300#16 0x3C#8] := by decide

/-- A-21: STA INDY with cross: fixed 6 cycles. -/
theorem test_A_21 :
    let t := after ({ boot 0x0600#16 [0x91#8, 0x20#8] [(0x0020#16, 0xF8#8), (0x0021#16, 0x30#8)] with a := 0x3D#8, y := 0x10#8 })
    (t.pc, t.pByte false, t.cycles) = (0x0602#16, 0x24#8, 6) ∧ t.mem.read 0x3108#16 = 0x3D#8 ∧
    t.bus.drop 2 = [.read 0x0020#16 0xF8#8, .read 0x0021#16 0x30#8, .write 0x3108#16 0x3D#8] := by decide

/-- A-22: INC ABSX with cross: fixed 7 cycles. -/
theorem test_A_22 :
    let t := after ({ boot 0x0600#16 [0xFE#8, 0xFF#8, 0x12#8] [(0x1300#16, 0x0F#8)] with x := 0x01#8 })
    (t.pc, t.pByte false, t.cycles) = (0x0603#16, 0x24#8, 7) ∧ t.mem.read 0x1300#16 = 0x10#8 ∧
    t.bus.drop 3 = [.read 0x1300#16 0x0F#8, .write 0x1300#16 0x10#8] := by decide

/-! ### Loads and stores (section 2.2) -/

/-- LS-1: LDA #0: Z=1. -/
theorem test_LS_1 :
    let t := after ({ boot 0x0600#16 [0xA9#8, 0x00#8] [] with a := 0x55#8 })
    (t.a, t.pc, t.pByte false, t.cycles) = (0x00#8, 0x0602#16, 0x26#8, 2) ∧
    t.bus.drop 2 = [] := by decide

/-- LS-3: LDX #0: Z=1, N cleared. -/
theorem test_LS_3 :
    let t := after ({ boot 0x0600#16 [0xA2#8, 0x00#8] [] with x := 0x01#8, n := true })
    (t.x, t.pc, t.pByte false, t.cycles) = (0x00#8, 0x0602#16, 0x26#8, 2) ∧
    t.bus.drop 2 = [] := by decide

/-- LS-4: LDY #$7F. -/
theorem test_LS_4 :
    let t := after (boot 0x0600#16 [0xA0#8, 0x7F#8] [])
    (t.y, t.pc, t.pByte false, t.cycles) = (0x7F#8, 0x0602#16, 0x24#8, 2) ∧
    t.bus.drop 2 = [] := by decide

/-- LS-5: LDX ABS. -/
theorem test_LS_5 :
    let t := after (boot 0x0600#16 [0xAE#8, 0x00#8, 0x03#8] [(0x0300#16, 0xFE#8)])
    (t.x, t.pc, t.pByte false, t.cycles) = (0xFE#8, 0x0603#16, 0xA4#8, 4) ∧
    t.bus.drop 3 = [.read 0x0300#16 0xFE#8] := by decide

/-- LS-6: LDX ABSY cross. -/
theorem test_LS_6 :
    let t := after ({ boot 0x0600#16 [0xBE#8, 0xF0#8, 0x03#8] [(0x0410#16, 0x12#8)] with y := 0x20#8 })
    (t.x, t.pc, t.pByte false, t.cycles) = (0x12#8, 0x0603#16, 0x24#8, 5) ∧
    t.bus.drop 3 = [.read 0x0410#16 0x12#8] := by decide

/-- LS-7: LDY ABSX no cross. -/
theorem test_LS_7 :
    let t := after ({ boot 0x0600#16 [0xBC#8, 0xF0#8, 0x03#8] [(0x03FF#16, 0x13#8)] with x := 0x0F#8 })
    (t.y, t.pc, t.pByte false, t.cycles) = (0x13#8, 0x0603#16, 0x24#8, 4) ∧
    t.bus.drop 3 = [.read 0x03FF#16 0x13#8] := by decide

/-- LS-8: LDY ZPX wrap. -/
theorem test_LS_8 :
    let t := after ({ boot 0x0600#16 [0xB4#8, 0x80#8] [(0x0010#16, 0x14#8)] with x := 0x90#8 })
    (t.y, t.pc, t.pByte false, t.cycles) = (0x14#8, 0x0602#16, 0x24#8, 4) ∧
    t.bus.drop 2 = [.read 0x0010#16 0x14#8] := by decide

/-- LS-9: STA ABS: flags unchanged. -/
theorem test_LS_9 :
    let t := after ({ boot 0x0600#16 [0x8D#8, 0x00#8, 0x02#8] [] with a := 0x5A#8 })
    (t.pc, t.pByte false, t.cycles) = (0x0603#16, 0x24#8, 4) ∧ t.mem.read 0x0200#16 = 0x5A#8 ∧
    t.bus.drop 3 = [.write 0x0200#16 0x5A#8] := by decide

/-- LS-10: STA of zero: Z not set, N kept. -/
theorem test_LS_10 :
    let t := after ({ boot 0x0600#16 [0x85#8, 0x10#8] [] with a := 0x00#8, n := true })
    (t.pc, t.pByte false, t.cycles) = (0x0602#16, 0xA4#8, 3) ∧
    t.bus.drop 2 = [.write 0x0010#16 0x00#8] := by decide

/-- LS-11: STX ZP. -/
theorem test_LS_11 :
    let t := after ({ boot 0x0600#16 [0x86#8, 0x10#8] [] with x := 0x07#8 })
    (t.pc, t.pByte false, t.cycles) = (0x0602#16, 0x24#8, 3) ∧ t.mem.read 0x0010#16 = 0x07#8 ∧
    t.bus.drop 2 = [.write 0x0010#16 0x07#8] := by decide

/-- LS-12: STX ZPY wrap to 0x0010. -/
theorem test_LS_12 :
    let t := after ({ boot 0x0600#16 [0x96#8, 0xF0#8] [] with x := 0x08#8, y := 0x20#8 })
    (t.pc, t.pByte false, t.cycles) = (0x0602#16, 0x24#8, 4) ∧ t.mem.read 0x0010#16 = 0x08#8 ∧
    t.bus.drop 2 = [.write 0x0010#16 0x08#8] := by decide

/-- LS-13: STY ABS. -/
theorem test_LS_13 :
    let t := after ({ boot 0x0600#16 [0x8C#8, 0x34#8, 0x12#8] [] with y := 0xFF#8 })
    (t.pc, t.pByte false, t.cycles) = (0x0603#16, 0x24#8, 4) ∧ t.mem.read 0x1234#16 = 0xFF#8 ∧
    t.bus.drop 3 = [.write 0x1234#16 0xFF#8] := by decide

/-- LS-14: STY ZPX. -/
theorem test_LS_14 :
    let t := after ({ boot 0x0600#16 [0x94#8, 0x10#8] [] with x := 0x01#8, y := 0x09#8 })
    (t.pc, t.pByte false, t.cycles) = (0x0602#16, 0x24#8, 4) ∧ t.mem.read 0x0011#16 = 0x09#8 ∧
    t.bus.drop 2 = [.write 0x0011#16 0x09#8] := by decide

/-- LS-15: STA INDX. -/
theorem test_LS_15 :
    let t := after ({ boot 0x0600#16 [0x81#8, 0x20#8] [(0x0024#16, 0x00#8), (0x0025#16, 0x30#8)] with a := 0xA5#8, x := 0x04#8 })
    (t.pc, t.pByte false, t.cycles) = (0x0602#16, 0x24#8, 6) ∧ t.mem.read 0x3000#16 = 0xA5#8 ∧
    t.bus.drop 2 = [.read 0x0024#16 0x00#8, .read 0x0025#16 0x30#8, .write 0x3000#16 0xA5#8] := by decide

/-- LS-16: STA ABSY 5 cycles. -/
theorem test_LS_16 :
    let t := after ({ boot 0x0600#16 [0x99#8, 0x00#8, 0x02#8] [] with a := 0xA6#8, y := 0x05#8 })
    (t.pc, t.pByte false, t.cycles) = (0x0603#16, 0x24#8, 5) ∧ t.mem.read 0x0205#16 = 0xA6#8 ∧
    t.bus.drop 3 = [.write 0x0205#16 0xA6#8] := by decide

/-! ### ADC and SBC (section 2.3) -/

/-- AR-2: source §8: chained ADC absolute. -/
theorem test_AR_2 :
    let t := after ({ boot 0x0600#16 [0x6D#8, 0x00#8, 0x02#8] [(0x0200#16, 0x69#8)] with a := 0x42#8 })
    (t.a, t.pc, t.pByte false, t.cycles) = (0xAB#8, 0x0603#16, 0xE4#8, 4) ∧
    t.bus.drop 3 = [.read 0x0200#16 0x69#8] := by decide

/-- AR-3: ADC ABSX with page cross: 5 cycles; carry in added. -/
theorem test_AR_3 :
    let t := after ({ boot 0x0600#16 [0x7D#8, 0xFF#8, 0x02#8] [(0x0300#16, 0x01#8)] with a := 0x01#8, x := 0x01#8, c := true })
    (t.a, t.pc, t.pByte false, t.cycles) = (0x03#8, 0x0603#16, 0x24#8, 5) ∧
    t.bus.drop 3 = [.read 0x0300#16 0x01#8] := by decide

/-- AR-4: ADC INDY cross: 6 cycles. -/
theorem test_AR_4 :
    let t := after ({ boot 0x0600#16 [0x71#8, 0x20#8] [(0x0020#16, 0x01#8), (0x0021#16, 0x02#8), (0x0300#16, 0x05#8)] with a := 0x10#8, y := 0xFF#8 })
    (t.a, t.pc, t.pByte false, t.cycles) = (0x15#8, 0x0602#16, 0x24#8, 6) ∧
    t.bus.drop 2 = [.read 0x0020#16 0x01#8, .read 0x0021#16 0x02#8, .read 0x0300#16 0x05#8] := by decide

/-- AR-5: SBC immediate. -/
theorem test_AR_5 :
    let t := after ({ boot 0x0600#16 [0xE9#8, 0xF0#8] [] with a := 0x50#8, c := true })
    (t.a, t.pc, t.pByte false, t.cycles) = (0x60#8, 0x0602#16, 0x24#8, 2) ∧
    t.bus.drop 2 = [] := by decide

/-- AR-6: SBC ZP with borrow in: 0x10-0x0F-1 = 0. -/
theorem test_AR_6 :
    let t := after ({ boot 0x0600#16 [0xE5#8, 0x10#8] [(0x0010#16, 0x0F#8)] with a := 0x10#8, c := false })
    (t.a, t.pc, t.pByte false, t.cycles) = (0x00#8, 0x0602#16, 0x27#8, 3) ∧
    t.bus.drop 2 = [.read 0x0010#16 0x0F#8] := by decide

/-- AR-9: ADC INDX: 0x01+0x7F = 0x80, V. -/
theorem test_AR_9 :
    let t := after ({ boot 0x0600#16 [0x61#8, 0x10#8] [(0x0012#16, 0x00#8), (0x0013#16, 0x04#8), (0x0400#16, 0x7F#8)] with a := 0x01#8, x := 0x02#8 })
    (t.a, t.pc, t.pByte false, t.cycles) = (0x80#8, 0x0602#16, 0xE4#8, 6) ∧
    t.bus.drop 2 = [.read 0x0012#16 0x00#8, .read 0x0013#16 0x04#8, .read 0x0400#16 0x7F#8] := by decide

/-! ### Logic, BIT, compares (section 2.4) -/

/-- LG-1: AND. -/
theorem test_LG_1 :
    let t := after ({ boot 0x0600#16 [0x29#8, 0x3C#8] [] with a := 0xF0#8 })
    (t.a, t.pc, t.pByte false, t.cycles) = (0x30#8, 0x0602#16, 0x24#8, 2) ∧
    t.bus.drop 2 = [] := by decide

/-- LG-2: AND to zero. -/
theorem test_LG_2 :
    let t := after ({ boot 0x0600#16 [0x29#8, 0x0F#8] [] with a := 0xF0#8 })
    (t.a, t.pc, t.pByte false, t.cycles) = (0x00#8, 0x0602#16, 0x26#8, 2) ∧
    t.bus.drop 2 = [] := by decide

/-- LG-3: ORA. -/
theorem test_LG_3 :
    let t := after ({ boot 0x0600#16 [0x09#8, 0x80#8] [] with a := 0x0F#8 })
    (t.a, t.pc, t.pByte false, t.cycles) = (0x8F#8, 0x0602#16, 0xA4#8, 2) ∧
    t.bus.drop 2 = [] := by decide

/-- LG-4: ORA zero. -/
theorem test_LG_4 :
    let t := after ({ boot 0x0600#16 [0x09#8, 0x00#8] [] with a := 0x00#8, n := true })
    (t.pc, t.pByte false, t.cycles) = (0x0602#16, 0x26#8, 2) ∧
    t.bus.drop 2 = [] := by decide

/-- LG-5: EOR. -/
theorem test_LG_5 :
    let t := after ({ boot 0x0600#16 [0x49#8, 0xFF#8] [] with a := 0xAA#8 })
    (t.a, t.pc, t.pByte false, t.cycles) = (0x55#8, 0x0602#16, 0x24#8, 2) ∧
    t.bus.drop 2 = [] := by decide

/-- LG-6: EOR self to zero. -/
theorem test_LG_6 :
    let t := after ({ boot 0x0600#16 [0x49#8, 0xAA#8] [] with a := 0xAA#8 })
    (t.a, t.pc, t.pByte false, t.cycles) = (0x00#8, 0x0602#16, 0x26#8, 2) ∧
    t.bus.drop 2 = [] := by decide

/-- LG-7: BIT: N,V from memory, Z from A and m. -/
theorem test_LG_7 :
    let t := after ({ boot 0x0600#16 [0x24#8, 0x10#8] [(0x0010#16, 0xC0#8)] with a := 0x01#8 })
    (t.pc, t.pByte false, t.cycles) = (0x0602#16, 0xE6#8, 3) ∧
    t.bus.drop 2 = [.read 0x0010#16 0xC0#8] := by decide

/-- LG-8: BIT clears N,V; Z=0. -/
theorem test_LG_8 :
    let t := after ({ boot 0x0600#16 [0x2C#8, 0x00#8, 0x02#8] [(0x0200#16, 0x3F#8)] with a := 0xFF#8, n := true, v := true })
    (t.pc, t.pByte false, t.cycles) = (0x0603#16, 0x24#8, 4) ∧
    t.bus.drop 3 = [.read 0x0200#16 0x3F#8] := by decide

/-- LG-11: CMP equal; V untouched. -/
theorem test_LG_11 :
    let t := after ({ boot 0x0600#16 [0xC9#8, 0x40#8] [] with a := 0x40#8, v := true })
    (t.pc, t.pByte false, t.cycles) = (0x0602#16, 0x67#8, 2) ∧
    t.bus.drop 2 = [] := by decide

/-- LG-13: CMP ignores D and carry in. -/
theorem test_LG_13 :
    let t := after ({ boot 0x0600#16 [0xC9#8, 0x01#8] [] with a := 0x00#8, d := true, c := true })
    (t.pc, t.pByte false, t.cycles) = (0x0602#16, 0xAC#8, 2) ∧
    t.bus.drop 2 = [] := by decide

/-- LG-15: CPX equal. -/
theorem test_LG_15 :
    let t := after ({ boot 0x0600#16 [0xE0#8, 0x10#8] [] with x := 0x10#8 })
    (t.pc, t.pByte false, t.cycles) = (0x0602#16, 0x27#8, 2) ∧
    t.bus.drop 2 = [] := by decide

/-- LG-16: CPX ZP less. -/
theorem test_LG_16 :
    let t := after ({ boot 0x0600#16 [0xE4#8, 0x10#8] [(0x0010#16, 0xFF#8)] with x := 0x00#8 })
    (t.pc, t.pByte false, t.cycles) = (0x0602#16, 0x24#8, 3) ∧
    t.bus.drop 2 = [.read 0x0010#16 0xFF#8] := by decide

/-- LG-17: CPY greater. -/
theorem test_LG_17 :
    let t := after ({ boot 0x0600#16 [0xC0#8, 0x03#8] [] with y := 0x05#8 })
    (t.pc, t.pByte false, t.cycles) = (0x0602#16, 0x25#8, 2) ∧
    t.bus.drop 2 = [] := by decide

/-- LG-18: CPY ABS: d=0x7F. -/
theorem test_LG_18 :
    let t := after ({ boot 0x0600#16 [0xCC#8, 0x00#8, 0x02#8] [(0x0200#16, 0x01#8)] with y := 0x80#8 })
    (t.pc, t.pByte false, t.cycles) = (0x0603#16, 0x25#8, 4) ∧
    t.bus.drop 3 = [.read 0x0200#16 0x01#8] := by decide

/-! ### Transfers and stack (section 2.5) -/

/-- TS-1: TAX. -/
theorem test_TS_1 :
    let t := after ({ boot 0x0600#16 [0xAA#8] [] with a := 0x80#8 })
    (t.x, t.pc, t.pByte false, t.cycles) = (0x80#8, 0x0601#16, 0xA4#8, 2) ∧
    t.bus.drop 1 = [] := by decide

/-- TS-2: TAY zero. -/
theorem test_TS_2 :
    let t := after ({ boot 0x0600#16 [0xA8#8] [] with a := 0x00#8, y := 0x05#8 })
    (t.y, t.pc, t.pByte false, t.cycles) = (0x00#8, 0x0601#16, 0x26#8, 2) ∧
    t.bus.drop 1 = [] := by decide

/-- TS-3: TXA. -/
theorem test_TS_3 :
    let t := after ({ boot 0x0600#16 [0x8A#8] [] with a := 0x01#8, x := 0x00#8 })
    (t.a, t.pc, t.pByte false, t.cycles) = (0x00#8, 0x0601#16, 0x26#8, 2) ∧
    t.bus.drop 1 = [] := by decide

/-- TS-4: TYA. -/
theorem test_TS_4 :
    let t := after ({ boot 0x0600#16 [0x98#8] [] with y := 0xFF#8 })
    (t.a, t.pc, t.pByte false, t.cycles) = (0xFF#8, 0x0601#16, 0xA4#8, 2) ∧
    t.bus.drop 1 = [] := by decide

/-- TS-5: TSX after reset: N=1. -/
theorem test_TS_5 :
    let t := after (boot 0x0600#16 [0xBA#8] [])
    (t.x, t.pc, t.pByte false, t.cycles) = (0xFD#8, 0x0601#16, 0xA4#8, 2) ∧
    t.bus.drop 1 = [] := by decide

/-- TS-6: TXS writes no flag (Z stays 0 though X=0). -/
theorem test_TS_6 :
    let t := after ({ boot 0x0600#16 [0x9A#8] [] with x := 0x00#8, n := true })
    (t.sp, t.pc, t.pByte false, t.cycles) = (0x00#8, 0x0601#16, 0xA4#8, 2) ∧
    t.bus.drop 1 = [] := by decide

/-- TS-7: PHA. -/
theorem test_TS_7 :
    let t := after ({ boot 0x0600#16 [0x48#8] [] with a := 0x42#8 })
    (t.sp, t.pc, t.pByte false, t.cycles) = (0xFC#8, 0x0601#16, 0x24#8, 3) ∧ t.mem.read 0x01FD#16 = 0x42#8 ∧
    t.bus.drop 1 = [.write 0x01FD#16 0x42#8] := by decide

/-- TS-8: PHA at SP=0: writes 0x0100, SP wraps to FF. -/
theorem test_TS_8 :
    let t := after ({ boot 0x0600#16 [0x48#8] [] with a := 0x43#8, sp := 0x00#8 })
    (t.sp, t.pc, t.pByte false, t.cycles) = (0xFF#8, 0x0601#16, 0x24#8, 3) ∧ t.mem.read 0x0100#16 = 0x43#8 ∧
    t.bus.drop 1 = [.write 0x0100#16 0x43#8] := by decide

/-- TS-9: PHP default flags: pushes 0x34. -/
theorem test_TS_9 :
    let t := after (boot 0x0600#16 [0x08#8] [])
    (t.sp, t.pc, t.pByte false, t.cycles) = (0xFC#8, 0x0601#16, 0x24#8, 3) ∧ t.mem.read 0x01FD#16 = 0x34#8 ∧
    t.bus.drop 1 = [.write 0x01FD#16 0x34#8] := by decide

/-- TS-10: PHP: pushes 0xFB. -/
theorem test_TS_10 :
    let t := after ({ boot 0x0600#16 [0x08#8] [] with n := true, v := true, d := true, i := false, z := true, c := true })
    (t.sp, t.pc, t.pByte false, t.cycles) = (0xFC#8, 0x0601#16, 0xEB#8, 3) ∧ t.mem.read 0x01FD#16 = 0xFB#8 ∧
    t.bus.drop 1 = [.write 0x01FD#16 0xFB#8] := by decide

/-- TS-11: PLA. -/
theorem test_TS_11 :
    let t := after ({ boot 0x0600#16 [0x68#8] [(0x01FD#16, 0x42#8)] with sp := 0xFC#8 })
    (t.a, t.sp, t.pc, t.pByte false, t.cycles) = (0x42#8, 0xFD#8, 0x0601#16, 0x24#8, 4) ∧
    t.bus.drop 1 = [.read 0x01FD#16 0x42#8] := by decide

/-- TS-12: PLA at SP=FF: reads 0x0100, SP wraps to 00; Z=1. -/
theorem test_TS_12 :
    let t := after ({ boot 0x0600#16 [0x68#8] [(0x0100#16, 0x00#8)] with a := 0x01#8, sp := 0xFF#8 })
    (t.a, t.sp, t.pc, t.pByte false, t.cycles) = (0x00#8, 0x00#8, 0x0601#16, 0x26#8, 4) ∧
    t.bus.drop 1 = [.read 0x0100#16 0x00#8] := by decide

/-- TS-13: PLP 0xFF: all six flags 1; view 0xEF. -/
theorem test_TS_13 :
    let t := after ({ boot 0x0600#16 [0x28#8] [(0x01FD#16, 0xFF#8)] with sp := 0xFC#8 })
    (t.sp, t.pc, t.pByte false, t.cycles) = (0xFD#8, 0x0601#16, 0xEF#8, 4) ∧
    t.bus.drop 1 = [.read 0x01FD#16 0xFF#8] := by decide

/-- TS-14: PLP 0x00: all six flags 0; view 0x20. -/
theorem test_TS_14 :
    let t := after ({ boot 0x0600#16 [0x28#8] [(0x01FD#16, 0x00#8)] with sp := 0xFC#8 })
    (t.sp, t.pc, t.pByte false, t.cycles) = (0xFD#8, 0x0601#16, 0x20#8, 4) ∧
    t.bus.drop 1 = [.read 0x01FD#16 0x00#8] := by decide

/-! ### Increments, decrements, shifts (section 2.6) -/

/-- ID-1: INC wraps: Z=1, C untouched. -/
theorem test_ID_1 :
    let t := after (boot 0x0600#16 [0xE6#8, 0x10#8] [(0x0010#16, 0xFF#8)])
    (t.pc, t.pByte false, t.cycles) = (0x0602#16, 0x26#8, 5) ∧ t.mem.read 0x0010#16 = 0x00#8 ∧
    t.bus.drop 2 = [.read 0x0010#16 0xFF#8, .write 0x0010#16 0x00#8] := by decide

/-- ID-2: INC to 0x80: N=1, V untouched. -/
theorem test_ID_2 :
    let t := after (boot 0x0600#16 [0xEE#8, 0x00#8, 0x02#8] [(0x0200#16, 0x7F#8)])
    (t.pc, t.pByte false, t.cycles) = (0x0603#16, 0xA4#8, 6) ∧ t.mem.read 0x0200#16 = 0x80#8 ∧
    t.bus.drop 3 = [.read 0x0200#16 0x7F#8, .write 0x0200#16 0x80#8] := by decide

/-- ID-3: INC ZPX. -/
theorem test_ID_3 :
    let t := after ({ boot 0x0600#16 [0xF6#8, 0x10#8] [(0x0011#16, 0x00#8)] with x := 0x01#8 })
    (t.pc, t.pByte false, t.cycles) = (0x0602#16, 0x24#8, 6) ∧ t.mem.read 0x0011#16 = 0x01#8 ∧
    t.bus.drop 2 = [.read 0x0011#16 0x00#8, .write 0x0011#16 0x01#8] := by decide

/-- ID-4: DEC wraps to FF. -/
theorem test_ID_4 :
    let t := after (boot 0x0600#16 [0xC6#8, 0x10#8] [(0x0010#16, 0x00#8)])
    (t.pc, t.pByte false, t.cycles) = (0x0602#16, 0xA4#8, 5) ∧ t.mem.read 0x0010#16 = 0xFF#8 ∧
    t.bus.drop 2 = [.read 0x0010#16 0x00#8, .write 0x0010#16 0xFF#8] := by decide

/-- ID-5: DEC to zero. -/
theorem test_ID_5 :
    let t := after (boot 0x0600#16 [0xCE#8, 0x00#8, 0x02#8] [(0x0200#16, 0x01#8)])
    (t.pc, t.pByte false, t.cycles) = (0x0603#16, 0x26#8, 6) ∧ t.mem.read 0x0200#16 = 0x00#8 ∧
    t.bus.drop 3 = [.read 0x0200#16 0x01#8, .write 0x0200#16 0x00#8] := by decide

/-- ID-6: DEC ABSX 7 cycles. -/
theorem test_ID_6 :
    let t := after ({ boot 0x0600#16 [0xDE#8, 0x00#8, 0x02#8] [(0x0201#16, 0x80#8)] with x := 0x01#8 })
    (t.pc, t.pByte false, t.cycles) = (0x0603#16, 0x24#8, 7) ∧ t.mem.read 0x0201#16 = 0x7F#8 ∧
    t.bus.drop 3 = [.read 0x0201#16 0x80#8, .write 0x0201#16 0x7F#8] := by decide

/-- ID-7: INX wrap. -/
theorem test_ID_7 :
    let t := after ({ boot 0x0600#16 [0xE8#8] [] with x := 0xFF#8 })
    (t.x, t.pc, t.pByte false, t.cycles) = (0x00#8, 0x0601#16, 0x26#8, 2) ∧
    t.bus.drop 1 = [] := by decide

/-- ID-8: INY. -/
theorem test_ID_8 :
    let t := after ({ boot 0x0600#16 [0xC8#8] [] with y := 0x7F#8 })
    (t.y, t.pc, t.pByte false, t.cycles) = (0x80#8, 0x0601#16, 0xA4#8, 2) ∧
    t.bus.drop 1 = [] := by decide

/-- ID-9: DEX wrap. -/
theorem test_ID_9 :
    let t := after ({ boot 0x0600#16 [0xCA#8] [] with x := 0x00#8 })
    (t.x, t.pc, t.pByte false, t.cycles) = (0xFF#8, 0x0601#16, 0xA4#8, 2) ∧
    t.bus.drop 1 = [] := by decide

/-- ID-10: DEY to zero. -/
theorem test_ID_10 :
    let t := after ({ boot 0x0600#16 [0x88#8] [] with y := 0x01#8 })
    (t.y, t.pc, t.pByte false, t.cycles) = (0x00#8, 0x0601#16, 0x26#8, 2) ∧
    t.bus.drop 1 = [] := by decide

/-- ID-12: ASL A to zero with carry. -/
theorem test_ID_12 :
    let t := after ({ boot 0x0600#16 [0x0A#8] [] with a := 0x80#8, c := false })
    (t.a, t.pc, t.pByte false, t.cycles) = (0x00#8, 0x0601#16, 0x27#8, 2) ∧
    t.bus.drop 1 = [] := by decide

/-- ID-13: ASL ZP: old C not used, C cleared. -/
theorem test_ID_13 :
    let t := after ({ boot 0x0600#16 [0x06#8, 0x10#8] [(0x0010#16, 0x40#8)] with c := true })
    (t.pc, t.pByte false, t.cycles) = (0x0602#16, 0xA4#8, 5) ∧ t.mem.read 0x0010#16 = 0x80#8 ∧
    t.bus.drop 2 = [.read 0x0010#16 0x40#8, .write 0x0010#16 0x80#8] := by decide

/-- ID-14: LSR A: N always 0. -/
theorem test_ID_14 :
    let t := after ({ boot 0x0600#16 [0x4A#8] [] with a := 0x01#8, n := true })
    (t.a, t.pc, t.pByte false, t.cycles) = (0x00#8, 0x0601#16, 0x27#8, 2) ∧
    t.bus.drop 1 = [] := by decide

/-- ID-15: LSR ABS. -/
theorem test_ID_15 :
    let t := after (boot 0x0600#16 [0x4E#8, 0x00#8, 0x02#8] [(0x0200#16, 0xFF#8)])
    (t.pc, t.pByte false, t.cycles) = (0x0603#16, 0x25#8, 6) ∧ t.mem.read 0x0200#16 = 0x7F#8 ∧
    t.bus.drop 3 = [.read 0x0200#16 0xFF#8, .write 0x0200#16 0x7F#8] := by decide

/-- ID-16: ROL A. -/
theorem test_ID_16 :
    let t := after ({ boot 0x0600#16 [0x2A#8] [] with a := 0x40#8, c := true })
    (t.a, t.pc, t.pByte false, t.cycles) = (0x81#8, 0x0601#16, 0xA4#8, 2) ∧
    t.bus.drop 1 = [] := by decide

/-- ID-17: ROL A to zero. -/
theorem test_ID_17 :
    let t := after ({ boot 0x0600#16 [0x2A#8] [] with a := 0x80#8, c := false })
    (t.a, t.pc, t.pByte false, t.cycles) = (0x00#8, 0x0601#16, 0x27#8, 2) ∧
    t.bus.drop 1 = [] := by decide

/-- ID-18: ROL ZP: carry enters bit 0. -/
theorem test_ID_18 :
    let t := after ({ boot 0x0600#16 [0x26#8, 0x10#8] [(0x0010#16, 0x00#8)] with c := true })
    (t.pc, t.pByte false, t.cycles) = (0x0602#16, 0x24#8, 5) ∧ t.mem.read 0x0010#16 = 0x01#8 ∧
    t.bus.drop 2 = [.read 0x0010#16 0x00#8, .write 0x0010#16 0x01#8] := by decide

/-- ID-19: ROR A. -/
theorem test_ID_19 :
    let t := after ({ boot 0x0600#16 [0x6A#8] [] with a := 0x01#8, c := true })
    (t.a, t.pc, t.pByte false, t.cycles) = (0x80#8, 0x0601#16, 0xA5#8, 2) ∧
    t.bus.drop 1 = [] := by decide

/-- ID-20: ROR A to zero. -/
theorem test_ID_20 :
    let t := after ({ boot 0x0600#16 [0x6A#8] [] with a := 0x01#8, c := false })
    (t.a, t.pc, t.pByte false, t.cycles) = (0x00#8, 0x0601#16, 0x27#8, 2) ∧
    t.bus.drop 1 = [] := by decide

/-- ID-21: ROR ABSX. -/
theorem test_ID_21 :
    let t := after ({ boot 0x0600#16 [0x7E#8, 0x00#8, 0x02#8] [(0x0202#16, 0x00#8)] with x := 0x02#8, c := true })
    (t.pc, t.pByte false, t.cycles) = (0x0603#16, 0xA4#8, 7) ∧ t.mem.read 0x0202#16 = 0x80#8 ∧
    t.bus.drop 3 = [.read 0x0202#16 0x00#8, .write 0x0202#16 0x80#8] := by decide

/-! ### Control flow (section 2.7) -/

/-- CF-1: JMP ABS. -/
theorem test_CF_1 :
    let t := after (boot 0x0600#16 [0x4C#8, 0x00#8, 0x80#8] [])
    (t.pc, t.pByte false, t.cycles) = (0x8000#16, 0x24#8, 3) ∧
    t.bus.drop 3 = [] := by decide

/-- CF-4: JSR at SP=0: wraps in page 1. -/
theorem test_CF_4 :
    let t := after ({ boot 0x0600#16 [0x20#8, 0x34#8, 0x12#8] [] with sp := 0x00#8 })
    (t.sp, t.pc, t.pByte false, t.cycles) = (0xFE#8, 0x1234#16, 0x24#8, 6) ∧ t.mem.read 0x0100#16 = 0x06#8 ∧ t.mem.read 0x01FF#16 = 0x02#8 ∧
    t.bus.drop 3 = [.write 0x0100#16 0x06#8, .write 0x01FF#16 0x02#8] := by decide

/-- CF-5: JSR at 0xFFFD: pushes 0xFFFF. -/
theorem test_CF_5 :
    let t := after (boot 0xFFFD#16 [0x20#8, 0x00#8, 0x10#8] [])
    (t.sp, t.pc, t.pByte false, t.cycles) = (0xFB#8, 0x1000#16, 0x24#8, 6) ∧ t.mem.read 0x01FC#16 = 0xFF#8 ∧ t.mem.read 0x01FD#16 = 0xFF#8 ∧
    t.bus.drop 3 = [.write 0x01FD#16 0xFF#8, .write 0x01FC#16 0xFF#8] := by decide

/-- CF-6: RTS: 0x0602+1. -/
theorem test_CF_6 :
    let t := after ({ boot 0x0600#16 [0x60#8] [(0x01FC#16, 0x02#8), (0x01FD#16, 0x06#8)] with sp := 0xFB#8 })
    (t.sp, t.pc, t.pByte false, t.cycles) = (0xFD#8, 0x0603#16, 0x24#8, 6) ∧
    t.bus.drop 1 = [.read 0x01FC#16 0x02#8, .read 0x01FD#16 0x06#8] := by decide

/-- CF-7: RTS with SP wrap; 0xFFFF+1 wraps to 0. -/
theorem test_CF_7 :
    let t := after ({ boot 0x0600#16 [0x60#8] [(0x0100#16, 0xFF#8), (0x0101#16, 0xFF#8)] with sp := 0xFF#8 })
    (t.sp, t.pc, t.pByte false, t.cycles) = (0x01#8, 0x0000#16, 0x24#8, 6) ∧
    t.bus.drop 1 = [.read 0x0100#16 0xFF#8, .read 0x0101#16 0xFF#8] := by decide

/-- CF-8: BPL taken (N=0), same page: 3 cycles. -/
theorem test_CF_8 :
    let t := after ({ boot 0x0600#16 [0x10#8, 0x05#8] [] with n := false })
    (t.pc, t.pByte false, t.cycles) = (0x0607#16, 0x24#8, 3) ∧
    t.bus.drop 2 = [] := by decide

/-- CF-9: BPL not taken (N=1): 2 cycles. -/
theorem test_CF_9 :
    let t := after ({ boot 0x0600#16 [0x10#8, 0x05#8] [] with n := true })
    (t.pc, t.pByte false, t.cycles) = (0x0602#16, 0xA4#8, 2) ∧
    t.bus.drop 2 = [] := by decide

/-- CF-10: BMI taken (N=1), same page: 3 cycles. -/
theorem test_CF_10 :
    let t := after ({ boot 0x0600#16 [0x30#8, 0x05#8] [] with n := true })
    (t.pc, t.pByte false, t.cycles) = (0x0607#16, 0xA4#8, 3) ∧
    t.bus.drop 2 = [] := by decide

/-- CF-11: BMI not taken (N=0): 2 cycles. -/
theorem test_CF_11 :
    let t := after ({ boot 0x0600#16 [0x30#8, 0x05#8] [] with n := false })
    (t.pc, t.pByte false, t.cycles) = (0x0602#16, 0x24#8, 2) ∧
    t.bus.drop 2 = [] := by decide

/-- CF-12: BVC taken (V=0), same page: 3 cycles. -/
theorem test_CF_12 :
    let t := after ({ boot 0x0600#16 [0x50#8, 0x05#8] [] with v := false })
    (t.pc, t.pByte false, t.cycles) = (0x0607#16, 0x24#8, 3) ∧
    t.bus.drop 2 = [] := by decide

/-- CF-13: BVC not taken (V=1): 2 cycles. -/
theorem test_CF_13 :
    let t := after ({ boot 0x0600#16 [0x50#8, 0x05#8] [] with v := true })
    (t.pc, t.pByte false, t.cycles) = (0x0602#16, 0x64#8, 2) ∧
    t.bus.drop 2 = [] := by decide

/-- CF-14: BVS taken (V=1), same page: 3 cycles. -/
theorem test_CF_14 :
    let t := after ({ boot 0x0600#16 [0x70#8, 0x05#8] [] with v := true })
    (t.pc, t.pByte false, t.cycles) = (0x0607#16, 0x64#8, 3) ∧
    t.bus.drop 2 = [] := by decide

/-- CF-15: BVS not taken (V=0): 2 cycles. -/
theorem test_CF_15 :
    let t := after ({ boot 0x0600#16 [0x70#8, 0x05#8] [] with v := false })
    (t.pc, t.pByte false, t.cycles) = (0x0602#16, 0x24#8, 2) ∧
    t.bus.drop 2 = [] := by decide

/-- CF-16: BCC taken (C=0), same page: 3 cycles. -/
theorem test_CF_16 :
    let t := after ({ boot 0x0600#16 [0x90#8, 0x05#8] [] with c := false })
    (t.pc, t.pByte false, t.cycles) = (0x0607#16, 0x24#8, 3) ∧
    t.bus.drop 2 = [] := by decide

/-- CF-17: BCC not taken (C=1): 2 cycles. -/
theorem test_CF_17 :
    let t := after ({ boot 0x0600#16 [0x90#8, 0x05#8] [] with c := true })
    (t.pc, t.pByte false, t.cycles) = (0x0602#16, 0x25#8, 2) ∧
    t.bus.drop 2 = [] := by decide

/-- CF-18: BCS taken (C=1), same page: 3 cycles. -/
theorem test_CF_18 :
    let t := after ({ boot 0x0600#16 [0xB0#8, 0x05#8] [] with c := true })
    (t.pc, t.pByte false, t.cycles) = (0x0607#16, 0x25#8, 3) ∧
    t.bus.drop 2 = [] := by decide

/-- CF-19: BCS not taken (C=0): 2 cycles. -/
theorem test_CF_19 :
    let t := after ({ boot 0x0600#16 [0xB0#8, 0x05#8] [] with c := false })
    (t.pc, t.pByte false, t.cycles) = (0x0602#16, 0x24#8, 2) ∧
    t.bus.drop 2 = [] := by decide

/-- CF-27: branch opcode at 0x06FE, next 0x0700, target 0x0702: same page as next, 3 cycles (D14). -/
theorem test_CF_27 :
    let t := after (boot 0x06FE#16 [0xD0#8, 0x02#8] [])
    (t.pc, t.pByte false, t.cycles) = (0x0702#16, 0x24#8, 3) ∧
    t.bus.drop 2 = [] := by decide

/-- CF-33: next 0xFFFE, target 0x0000: pages FF and 00 differ: 4 cycles. -/
theorem test_CF_33 :
    let t := after (boot 0xFFFC#16 [0xD0#8, 0x02#8] [])
    (t.pc, t.pByte false, t.cycles) = (0x0000#16, 0x24#8, 4) ∧
    t.bus.drop 2 = [] := by decide

/-- CF-22: BEQ taken (Z=1), same page: 3 cycles. -/
theorem test_CF_22 :
    let t := after ({ boot 0x0600#16 [0xF0#8, 0x05#8] [] with z := true })
    (t.pc, t.pByte false, t.cycles) = (0x0607#16, 0x26#8, 3) ∧
    t.bus.drop 2 = [] := by decide

/-- CF-23: BEQ not taken (Z=0): 2 cycles. -/
theorem test_CF_23 :
    let t := after ({ boot 0x0600#16 [0xF0#8, 0x05#8] [] with z := false })
    (t.pc, t.pByte false, t.cycles) = (0x0602#16, 0x24#8, 2) ∧
    t.bus.drop 2 = [] := by decide

/-! ### Flags, NOP, BRK, RTI (section 2.8) -/

/-- FS-1: CLC. -/
theorem test_FS_1 :
    let t := after ({ boot 0x0600#16 [0x18#8] [] with c := true })
    (t.pc, t.pByte false, t.cycles) = (0x0601#16, 0x24#8, 2) ∧
    t.bus.drop 1 = [] := by decide

/-- FS-2: SEC. -/
theorem test_FS_2 :
    let t := after (boot 0x0600#16 [0x38#8] [])
    (t.pc, t.pByte false, t.cycles) = (0x0601#16, 0x25#8, 2) ∧
    t.bus.drop 1 = [] := by decide

/-- FS-3: CLI: view 0x20. -/
theorem test_FS_3 :
    let t := after (boot 0x0600#16 [0x58#8] [])
    (t.pc, t.pByte false, t.cycles) = (0x0601#16, 0x20#8, 2) ∧
    t.bus.drop 1 = [] := by decide

/-- FS-4: SEI. -/
theorem test_FS_4 :
    let t := after ({ boot 0x0600#16 [0x78#8] [] with i := false })
    (t.pc, t.pByte false, t.cycles) = (0x0601#16, 0x24#8, 2) ∧
    t.bus.drop 1 = [] := by decide

/-- FS-5: CLD. -/
theorem test_FS_5 :
    let t := after ({ boot 0x0600#16 [0xD8#8] [] with d := true })
    (t.pc, t.pByte false, t.cycles) = (0x0601#16, 0x24#8, 2) ∧
    t.bus.drop 1 = [] := by decide

/-- FS-6: SED: view 0x2C. -/
theorem test_FS_6 :
    let t := after (boot 0x0600#16 [0xF8#8] [])
    (t.pc, t.pByte false, t.cycles) = (0x0601#16, 0x2C#8, 2) ∧
    t.bus.drop 1 = [] := by decide

/-- FS-7: CLV. -/
theorem test_FS_7 :
    let t := after ({ boot 0x0600#16 [0xB8#8] [] with v := true })
    (t.pc, t.pByte false, t.cycles) = (0x0601#16, 0x24#8, 2) ∧
    t.bus.drop 1 = [] := by decide

/-- FS-8: NOP: only PC changes. -/
theorem test_FS_8 :
    let t := after ({ boot 0x0600#16 [0xEA#8] [] with a := 0x01#8, x := 0x02#8, y := 0x03#8, n := true, v := true, d := true, z := true, c := true })
    (t.pc, t.pByte false, t.cycles) = (0x0601#16, 0xEF#8, 2) ∧
    t.bus.drop 1 = [] := by decide

/-- FS-10: BRK with stack wrap; D kept; pushed byte 0x3C. -/
theorem test_FS_10 :
    let t := after ({ boot 0x0600#16 [0x00#8] [(0xFFFE#16, 0x34#8), (0xFFFF#16, 0x12#8)] with sp := 0x01#8, d := true })
    (t.sp, t.pc, t.pByte false, t.cycles) = (0xFE#8, 0x1234#16, 0x2C#8, 7) ∧ t.mem.read 0x0100#16 = 0x02#8 ∧ t.mem.read 0x0101#16 = 0x06#8 ∧ t.mem.read 0x01FF#16 = 0x3C#8 ∧
    t.bus.drop 1 = [.write 0x0101#16 0x06#8, .write 0x0100#16 0x02#8, .write 0x01FF#16 0x3C#8, .read 0xFFFE#16 0x34#8, .read 0xFFFF#16 0x12#8] := by decide

/-- FS-11: BRK at 0xFFFF: return address 0x0001; the opcode byte at FFFF is also the vector high byte. -/
theorem test_FS_11 :
    let t := after (boot 0xFFFF#16 [0x00#8] [(0xFFFE#16, 0x00#8)])
    (t.sp, t.pc, t.pByte false, t.cycles) = (0xFA#8, 0x0000#16, 0x24#8, 7) ∧ t.mem.read 0x01FB#16 = 0x34#8 ∧ t.mem.read 0x01FC#16 = 0x01#8 ∧
    t.bus.drop 1 = [.write 0x01FD#16 0x00#8, .write 0x01FC#16 0x01#8, .write 0x01FB#16 0x34#8, .read 0xFFFE#16 0x00#8, .read 0xFFFF#16 0x00#8] := by decide

/-- FS-12: RTI: flags from 0x33, PC exact. -/
theorem test_FS_12 :
    let t := after ({ boot 0x0600#16 [0x40#8] [(0x01FB#16, 0x33#8), (0x01FC#16, 0x02#8), (0x01FD#16, 0x06#8)] with sp := 0xFA#8 })
    (t.sp, t.pc, t.pByte false, t.cycles) = (0xFD#8, 0x0602#16, 0x23#8, 6) ∧
    t.bus.drop 1 = [.read 0x01FB#16 0x33#8, .read 0x01FC#16 0x02#8, .read 0x01FD#16 0x06#8] := by decide

/-- FS-13: RTI with SP wrap. -/
theorem test_FS_13 :
    let t := after ({ boot 0x0600#16 [0x40#8] [(0x0100#16, 0x78#8), (0x0101#16, 0x56#8), (0x01FF#16, 0xCF#8)] with sp := 0xFE#8 })
    (t.sp, t.pc, t.pByte false, t.cycles) = (0x01#8, 0x5678#16, 0xEF#8, 6) ∧
    t.bus.drop 1 = [.read 0x01FF#16 0xCF#8, .read 0x0100#16 0x78#8, .read 0x0101#16 0x56#8] := by decide
/-! ### ADC and SBC tables (section 2.3) -/

/-- Each row: accumulator, operand, carry before; accumulator, N, V, Z, C after. -/
def aluRows (f : Byte → Byte → Bool → AluResult) (l : List (Byte × Byte × Bool × AluResult)) : Bool :=
  l.all fun p => decide (f p.1 p.2.1 p.2.2.1 = p.2.2.2)

theorem test_adc_binary_1 : aluRows addBinary [
    (0x00#8, 0x42#8, false, ⟨0x42#8, false, false, false, false⟩),
    (0x42#8, 0x69#8, false, ⟨0xAB#8, true, true, false, false⟩),
    (0x50#8, 0x10#8, false, ⟨0x60#8, false, false, false, false⟩),
    (0x50#8, 0x50#8, false, ⟨0xA0#8, true, true, false, false⟩),
    (0x50#8, 0x90#8, false, ⟨0xE0#8, true, false, false, false⟩),
    (0x50#8, 0xD0#8, false, ⟨0x20#8, false, false, false, true⟩),
    (0xD0#8, 0x10#8, false, ⟨0xE0#8, true, false, false, false⟩),
    (0xD0#8, 0x50#8, false, ⟨0x20#8, false, false, false, true⟩),
    (0xD0#8, 0x90#8, false, ⟨0x60#8, false, true, false, true⟩),
    (0xD0#8, 0xD0#8, false, ⟨0xA0#8, true, false, false, true⟩)] = true := by decide +kernel

theorem test_adc_binary_2 : aluRows addBinary [
    (0xFF#8, 0x01#8, false, ⟨0x00#8, false, false, true, true⟩),
    (0x7F#8, 0x00#8, true, ⟨0x80#8, true, true, false, false⟩),
    (0x80#8, 0xFF#8, false, ⟨0x7F#8, false, true, false, true⟩),
    (0x00#8, 0x00#8, false, ⟨0x00#8, false, false, true, false⟩),
    (0xFF#8, 0xFF#8, true, ⟨0xFF#8, true, false, false, true⟩),
    (0x01#8, 0xFF#8, false, ⟨0x00#8, false, false, true, true⟩),
    (0x3F#8, 0x40#8, true, ⟨0x80#8, true, true, false, false⟩),
    (0x80#8, 0x80#8, false, ⟨0x00#8, false, true, true, true⟩),
    (0x7F#8, 0x7F#8, true, ⟨0xFF#8, true, true, false, false⟩),
    (0x00#8, 0xFF#8, true, ⟨0x00#8, false, false, true, true⟩)] = true := by decide +kernel

theorem test_sbc_binary_1 : aluRows subBinary [
    (0x50#8, 0xF0#8, true, ⟨0x60#8, false, false, false, false⟩),
    (0x50#8, 0xB0#8, true, ⟨0xA0#8, true, true, false, false⟩),
    (0x50#8, 0x70#8, true, ⟨0xE0#8, true, false, false, false⟩),
    (0x50#8, 0x30#8, true, ⟨0x20#8, false, false, false, true⟩),
    (0xD0#8, 0xF0#8, true, ⟨0xE0#8, true, false, false, false⟩),
    (0xD0#8, 0xB0#8, true, ⟨0x20#8, false, false, false, true⟩),
    (0xD0#8, 0x70#8, true, ⟨0x60#8, false, true, false, true⟩),
    (0xD0#8, 0x30#8, true, ⟨0xA0#8, true, false, false, true⟩),
    (0x00#8, 0x01#8, true, ⟨0xFF#8, true, false, false, false⟩),
    (0x00#8, 0x00#8, false, ⟨0xFF#8, true, false, false, false⟩)] = true := by decide +kernel

theorem test_sbc_binary_2 : aluRows subBinary [
    (0x80#8, 0x01#8, true, ⟨0x7F#8, false, true, false, true⟩),
    (0x7F#8, 0xFF#8, true, ⟨0x80#8, true, true, false, false⟩),
    (0x42#8, 0x42#8, true, ⟨0x00#8, false, false, true, true⟩),
    (0x42#8, 0x42#8, false, ⟨0xFF#8, true, false, false, false⟩),
    (0x00#8, 0x00#8, true, ⟨0x00#8, false, false, true, true⟩),
    (0xFF#8, 0xFF#8, true, ⟨0x00#8, false, false, true, true⟩),
    (0x80#8, 0x80#8, true, ⟨0x00#8, false, false, true, true⟩),
    (0x00#8, 0x80#8, true, ⟨0x80#8, true, true, false, false⟩),
    (0x01#8, 0x00#8, false, ⟨0x00#8, false, false, true, true⟩)] = true := by decide +kernel

theorem test_adc_decimal_1 : aluRows addDecimal [
    (0x12#8, 0x34#8, false, ⟨0x46#8, false, false, false, false⟩),
    (0x15#8, 0x26#8, false, ⟨0x41#8, false, false, false, false⟩),
    (0x58#8, 0x46#8, true, ⟨0x05#8, true, true, false, true⟩),
    (0x81#8, 0x92#8, false, ⟨0x73#8, false, true, false, true⟩),
    (0x99#8, 0x01#8, false, ⟨0x00#8, true, false, false, true⟩),
    (0x99#8, 0x99#8, true, ⟨0x99#8, false, true, false, true⟩),
    (0x00#8, 0x00#8, false, ⟨0x00#8, false, false, true, false⟩),
    (0x79#8, 0x00#8, true, ⟨0x80#8, true, true, false, false⟩),
    (0x24#8, 0x56#8, false, ⟨0x80#8, true, true, false, false⟩),
    (0x82#8, 0x54#8, false, ⟨0x36#8, true, false, false, true⟩)] = true := by decide +kernel

theorem test_adc_decimal_2 : aluRows addDecimal [
    (0x89#8, 0x76#8, false, ⟨0x65#8, false, false, false, true⟩),
    (0x50#8, 0x50#8, false, ⟨0x00#8, true, true, false, true⟩),
    (0x49#8, 0x01#8, false, ⟨0x50#8, false, false, false, false⟩),
    (0x09#8, 0x01#8, false, ⟨0x10#8, false, false, false, false⟩),
    (0x90#8, 0x10#8, false, ⟨0x00#8, true, false, false, true⟩),
    (0x75#8, 0x25#8, false, ⟨0x00#8, true, true, false, true⟩),
    (0x80#8, 0xF0#8, false, ⟨0xD0#8, false, true, false, true⟩),
    (0x0A#8, 0x00#8, false, ⟨0x10#8, false, false, false, false⟩),
    (0x0F#8, 0x0F#8, false, ⟨0x14#8, false, false, false, false⟩),
    (0xFF#8, 0xFF#8, true, ⟨0x55#8, true, false, false, true⟩)] = true := by decide +kernel

theorem test_sbc_decimal_1 : aluRows subDecimal [
    (0x46#8, 0x12#8, true, ⟨0x34#8, false, false, false, true⟩),
    (0x40#8, 0x13#8, true, ⟨0x27#8, false, false, false, true⟩),
    (0x32#8, 0x02#8, false, ⟨0x29#8, false, false, false, true⟩),
    (0x12#8, 0x21#8, true, ⟨0x91#8, true, false, false, false⟩),
    (0x21#8, 0x34#8, true, ⟨0x87#8, true, false, false, false⟩),
    (0x00#8, 0x01#8, true, ⟨0x99#8, true, false, false, false⟩),
    (0x00#8, 0x00#8, false, ⟨0x99#8, true, false, false, false⟩),
    (0x00#8, 0x00#8, true, ⟨0x00#8, false, false, true, true⟩)] = true := by decide +kernel

theorem test_sbc_decimal_2 : aluRows subDecimal [
    (0x10#8, 0x01#8, true, ⟨0x09#8, false, false, false, true⟩),
    (0x99#8, 0x99#8, true, ⟨0x00#8, false, false, true, true⟩),
    (0x50#8, 0x50#8, true, ⟨0x00#8, false, false, true, true⟩),
    (0x00#8, 0x99#8, true, ⟨0x01#8, false, false, false, false⟩),
    (0x0A#8, 0x00#8, true, ⟨0x0A#8, false, false, false, true⟩),
    (0x00#8, 0x0F#8, true, ⟨0x9B#8, true, false, false, false⟩),
    (0xFF#8, 0x00#8, true, ⟨0xFF#8, true, false, false, true⟩)] = true := by decide +kernel
/-! ### Unknown opcodes, reset, interrupts (sections 2.9 to 2.11) -/

/-- UO-1: an unknown opcode is recorded with its address. -/
theorem test_UO_1 : step (boot 0x0600#16 [0x02#8] []) = .fault (.unknownOpcode 0x02#8 0x0600#16) := rfl

/-- UO-9: the error leaves the program counter one further, here wrapped; the total is 0. -/
theorem test_UO_9 :
    let r := run 1 (boot 0xFFFF#16 [0xFF#8] [])
    r.error = some (.unknownOpcode 0xFF#8 0xFFFF#16) ∧ r.state.pc = 0x0000#16 ∧ r.state.cycles = 0 ∧
    r.state.bus = [.read 0xFFFF#16 0xFF#8] := by decide

/-- RS-2: `reset()` changes I, SP and PC only. -/
theorem test_RS_2 :
    let s := { boot 0x4321#16 [] [(0xFFFC#16, 0x34#8), (0xFFFD#16, 0x12#8)] with
      a := 0xAA#8, sp := 0x10#8, n := true, v := true, d := true, i := false, z := true, c := true }
    s.resetCall.introspect = ⟨0xAA#8, 0x00#8, 0x00#8, 0xFD#8, 0x1234#16, 0xEF#8⟩ ∧
    s.resetCall.bus = [.read 0xFFFC#16 0x34#8, .read 0xFFFD#16 0x12#8] := by decide

/-- RS-5: with no vector loaded the program counter is 0. -/
theorem test_RS_5 : State.reset.pc = 0x0000#16 ∧ State.reset.introspect.p = 0x24#8 ∧ State.reset.mem.wf = true := by decide

/-- The memory and the registers of the interrupt vectors: INY at 0x0600, NOP at 0x8000, INX at 0x9000. -/
def interrupted (n i z d c : Bool) (irq pending : Bool) : State :=
  { boot 0x0600#16 [0xC8#8] [(0x8000#16, 0xEA#8), (0x9000#16, 0xE8#8), (0xFFFB#16, 0x80#8), (0xFFFF#16, 0x90#8)] with
    n := n, i := i, z := z, d := d, c := c, inputs := some ⟨irq, false, false, pending⟩ }

/-- No request, with I = 0. -/
def idleState : State := interrupted false false false false false false false

/-- R236: the inputs are an argument of each step of one run: INY, then INX in the handler of the IRQ of step 2. -/
theorem test_runWith_irq_in_second_step :
    let r := runWith [⟨false, false⟩, ⟨true, false⟩] idleState
    (r.state.y, r.state.x, r.state.pc, r.state.cycles, r.error) = (0x01#8, 0x01#8, 0x9001#16, 11, none) := by decide

/-- R238: an edge of `nmi` is taken once though the level stays: NOP in the handler, then the byte after it. -/
theorem test_runWith_nmi_edge_once :
    let r := runWith [⟨false, true⟩, ⟨false, true⟩] { idleState with mem := idleState.mem.write 0x8001#16 0xEA#8 }
    (r.state.y, r.state.sp, r.state.pc, r.state.cycles, r.error) = (0x00#8, 0xFA#8, 0x8002#16, 11, none) := by decide

/-- IQ-1: an IRQ taken, then the handler's first instruction. -/
theorem test_IQ_1 :
    let t := after (interrupted true false false false true true false)
    (t.x, t.sp, t.pc, t.pByte false, t.cycles) = (0x01#8, 0xFA#8, 0x9001#16, 0x25#8, 9) ∧
    t.bus = [.write 0x01FD#16 0x06#8, .write 0x01FC#16 0x00#8, .write 0x01FB#16 0xA1#8, .read 0xFFFE#16 0x00#8,
      .read 0xFFFF#16 0x90#8, .read 0x9000#16 0xE8#8] := by decide

/-- IQ-2: an IRQ masked by I. -/
theorem test_IQ_2 :
    let t := after (interrupted false true false false false true false)
    (t.y, t.sp, t.pc, t.cycles) = (0x01#8, 0xFD#8, 0x0601#16, 2) := by decide

/-- IQ-3: an NMI is taken whatever I is, and its latch is cleared. -/
theorem test_IQ_3 :
    let t := after (interrupted false true true false false false true)
    (t.sp, t.pc, t.pByte false, t.cycles) = (0xFA#8, 0x8001#16, 0x26#8, 9) ∧ t.mem.read 0x01FB#16 = 0x26#8 ∧
    t.inputs = some ⟨false, false, false, false⟩ := by decide

/-- IQ-4: both requested: the NMI is taken first. -/
theorem test_IQ_4 :
    let t := after (interrupted false false false true false true true)
    (t.pc, t.pByte false, t.cycles) = (0x8001#16, 0x2C#8, 9) ∧ t.mem.read 0x01FB#16 = 0x28#8 := by decide

/-! ### The host's interface -/

/-- The next step runs the placed instruction: LDA $0001, placed at 0x0000, reads its own second byte; LDA #$42. -/
theorem test_withFetchWord : (after (State.reset.withFetchWord 24 0x0001AD)).a = 0x01#8 ∧
    (after (State.reset.withFetchWord 16 0x42A9)).a = 0x42#8 := by decide

/-- Writing what an unlisted address reads as removes the entry: equal memories are equal data. -/
theorem test_memory_canonical : (Memory.write (Memory.write [] 0x0200#16 0x05#8) 0x0200#16 0x00#8) = [] ∧
    Memory.write (Memory.write [] 0x0300#16 0x01#8) 0x0200#16 0x05#8 = [(0x0200, 0x05#8), (0x0300, 0x01#8)] := by decide

/-! ### Witnesses: the hypotheses of each obligation, met together by concrete values -/

/-- A NOP, an unknown opcode, and a store at 0x0600. -/
def nopState : State := boot 0x0600#16 [0xEA#8] []
def unknownState : State := boot 0x0600#16 [0x02#8] []
def storeState : State := { boot 0x0600#16 [0x8D#8, 0xFF#8, 0x01#8] [] with a := 0x5A#8 }

theorem witness_EncodeInvertsDecode :
    decode [0x6C#8, 0xFF#8, 0x02#8, 0x77#8] = .ok (.jmpInd 0x02FF#16, [0x77#8]) := by decide

theorem witness_UnknownOpcodesAreTheListedBytes : unknownState.serviceInterrupt = unknownState ∧
    unknownState.mem.read unknownState.pc ∈ unknownOpcodes ∧ nopState.serviceInterrupt = nopState ∧
    nopState.mem.read nopState.pc ∉ unknownOpcodes := by decide

theorem witness_StepRunsTheDecodedInstruction : storeState.inputs = none ∧ storeState.serviceInterrupt = storeState ∧
    (∃ rest, decode [storeState.mem.read storeState.pc, storeState.mem.read (storeState.pc + 1#16),
      storeState.mem.read (storeState.pc + 2#16)] = .ok (.staAbs 0x01FF#16, rest)) ∧
    encode (.staAbs 0x01FF#16) = (List.range (Instr.staAbs 0x01FF#16).length).map
      (fun k => storeState.mem.read (storeState.pc + BitVec.ofNat 16 k)) :=
  ⟨by decide, by decide, ⟨_, rfl⟩, by decide⟩

/-- The same at the end of memory, with an interrupt taken first: the handler's INX at 0xFFFF is what is decoded. -/
theorem witness_StepRunsTheDecodedInstruction_interrupted :
    let s := { boot 0x0600#16 [] [(0xFFFE#16, 0xFF#8), (0xFFFF#16, 0xFF#8)] with
      i := false, inputs := some ⟨true, false, false, false⟩ }
    s.serviceInterrupt.pc = 0xFFFF#16 ∧ s.serviceInterrupt.mem.read 0xFFFF#16 = 0xFF#8 := by decide

theorem witness_UnknownOpcodeLeavesOnlyTheFetch : unknownState.serviceInterrupt = unknownState ∧
    unknownState.mem.read unknownState.pc = 0x02#8 ∧ descriptorOf 0x02#8 = none ∧
    unknownState.inputs = none ∧ runSteps 0 unknownState = ⟨unknownState, none⟩ := by decide

theorem witness_StepCostsTwoToFourteenCycles : ∃ t, step (interrupted true false false false true true false) = .next t :=
  ⟨_, rfl⟩

theorem witness_RunsCompose : (run 1 nopState).error = none ∧ (run 1 unknownState).error ≠ none ∧
    (runWith [⟨true, false⟩] idleState).error = none ∧ (runWith [⟨true, false⟩] unknownState).error ≠ none ∧
    nopState.inputs = none ∧ idleState.inputs = some ⟨false, false, false, false⟩ := by decide

theorem witness_RunTotalsAreBounded : nopState.inputs = none ∧ (run 1 nopState).error = none ∧
    ([⟨false, false⟩, ⟨true, false⟩] : List RequestLevels).length = 2 ∧
    (runWith [⟨false, false⟩, ⟨true, false⟩] idleState).error = none := by decide

theorem witness_CyclesAndPortRecordAreNeverRead : (∃ t, step nopState = .next t) ∧ ∃ f, step unknownState = .fault f :=
  ⟨⟨_, rfl⟩, ⟨_, rfl⟩⟩

theorem witness_PortCallsAccountForMemory : ∃ t, step storeState = .next t := ⟨_, rfl⟩

theorem witness_PortCallCountsPerInstruction : ∃ t, step storeState = .next t := ⟨_, rfl⟩

theorem witness_PlacedWordIsRunByTheNextStep : decodeTableWord 8 0x6D = some (.adcAbs 0x0000#16) ∧
    decodeTableWord 24 0xFFFF9D = some (.staAbsX 0xFFFF#16) := by decide

theorem witness_StepKeepsMemoryCanonical : storeState.mem.wf = true ∧ ∃ t, step storeState = .next t := ⟨by decide, _, rfl⟩

theorem witness_FlagNeutralityMatrix : StatusFlag.V ∉ flagsWritten (Instr.ldaImm 0x00#8).operation ∧
    Instr.brk.operation = .BRK ∧ Instr.sei.operation = .SEI ∧ Instr.cli.operation = .CLI ∧ Instr.clc.operation = .CLC ∧
    Instr.sec.operation = .SEC ∧ Instr.cld.operation = .CLD ∧ Instr.sed.operation = .SED ∧ Instr.clv.operation = .CLV ∧
    Instr.lsrAcc.operation = .LSR := by decide

theorem witness_RegistersAreWrittenByTheirInstructionsOnly : writesA (.aslZp 0x10#8) = false ∧ writesX .txs = false ∧
    writesY .tya = false ∧ writesSP .tsx = false ∧ writesPC .pha = false := by decide

theorem witness_RegistersAreReadByTheirInstructionsOnly : readsA .txa = false ∧ readsX .tax = false ∧
    readsY (.ldaIndX 0x10#8) = false := by decide

theorem witness_MemoryChangesOnlyAtStoredAddresses :
    0x0000#16 ∉ storedAddresses (.jsr 0x1234#16) { nopState with sp := 0x00#8 } ∧
    storedAddresses (.jsr 0x1234#16) { nopState with sp := 0x00#8 } = [0x0100#16, 0x01FF#16] ∧
    0xFFFF#16 ∉ storedAddresses (.staZp 0xFF#8) nopState := by decide

theorem witness_SequentialStepsAdvanceByTheLength :
    let s := boot 0xFFFE#16 [0xA9#8, 0x01#8] []
    s.serviceInterrupt = s ∧ writesPC (.ldaImm 0x01#8) = false ∧
    decode [s.mem.read s.pc, s.mem.read (s.pc + 1#16), s.mem.read (s.pc + 2#16)] = .ok (.ldaImm 0x01#8, [0x00#8]) := by decide

theorem witness_ZeroPageAddressesWrapInPageZero :
    (AddrMode.zpX 0xFF#8) ∈ [AddrMode.zp 0xFF#8, .zpX 0xFF#8, .zpY 0xFF#8] := by decide

theorem witness_AbsoluteAddressesWrapAndReportCrosses :
    (AddrMode.absY 0xFFFF#16) ∈ [AddrMode.abs 0xFFFF#16, .absX 0xFFFF#16, .absY 0xFFFF#16] := by decide

/-- A pointer at the end of its page, for each of the three indirect modes. -/
theorem witness_PointersAreReadWithinTheirPage :
    (0x0200#16).toNat = (0x02FF#16).toNat / 256 * 256 + ((0x02FF#16).toNat % 256 + 1) % 256 ∧
    (0x00FF#16).toNat = ((0xFE#8).toNat + ({ nopState with x := 0x01#8 }).x.toNat) % 256 ∧
    (0x0000#16).toNat = ((0x00FF#16).toNat + 1) % 256 ∧ (0x00FF#16).toNat = (0xFF#8).toNat := by decide

theorem witness_LoadsPutTheOperandInTheRegister : (Instr.ldaIndY 0xFF#8).operation = .LDA ∧
    (Instr.ldxImm 0x00#8).operation = .LDX ∧ (Instr.ldyAbsX 0xFFFF#16).operation = .LDY := by decide

theorem witness_StoresWriteTheRegisterAtTheAddress : (Instr.staIndX 0xFF#8).operation = .STA ∧
    (Instr.stxZpY 0xFF#8).operation = .STX ∧ (Instr.styAbs 0xFFFF#16).operation = .STY ∧ storeState.a = 0x5A#8 ∧
    storeState.x = 0x00#8 ∧ storeState.y = 0x00#8 := by decide

theorem witness_PushesStoreBelowTheStack : nopState.a = 0x00#8 ∧
    0x34#8 = BitVec.ofNat 8 (nopState.n.toNat * 128 + nopState.v.toNat * 64 + 32 + 16 + nopState.d.toNat * 8 +
      nopState.i.toNat * 4 + nopState.z.toNat * 2 + nopState.c.toNat) := by decide

/-- A pull at SP = 0xFF reads 0x0100. -/
theorem witness_PullsLoadFromTheStack :
    let s := { boot 0x0600#16 [0x68#8] [(0x0100#16, 0x42#8)] with sp := 0xFF#8 }
    0x0100#16 = 0x0100#16 + zext (s.sp + 1#8) ∧ 0x42#8 = s.mem.read 0x0100#16 ∧
    ({ s with inputs := some ⟨true, false, false, false⟩ }).inputs = some ⟨true, false, false, false⟩ := by decide

theorem witness_LogicCombinesAccumulatorAndOperand :
    ((Instr.andImm 0x3C#8).operation = .AND ∧ 0x30#8 = 0xF0#8 &&& 0x3C#8) ∧
    ((Instr.oraImm 0x80#8).operation = .ORA ∧ 0x8F#8 = 0x0F#8 ||| 0x80#8) ∧
    ((Instr.eorImm 0xAA#8).operation = .EOR ∧ 0x00#8 = 0xAA#8 ^^^ 0xAA#8) ∧
    operandOf (.andImm 0x3C#8) nopState = 0x3C#8 := by decide

theorem witness_BitTestsTheMemoryByte : (Instr.bitZp 0x10#8).operation = .BIT := by decide

theorem witness_AdcAddsInTheModeOfD : (Instr.adcIndY 0x20#8).operation = .ADC ∧ nopState.d = false ∧
    ({ nopState with d := true }).d = true := by decide

theorem witness_SbcSubtractsInTheModeOfD : (Instr.sbcZp 0x10#8).operation = .SBC ∧ nopState.d = false ∧
    ({ nopState with d := true }).d = true := by decide

/-- 0x99 + 0x99 + 1, all four intermediate values; and the digits 9, 9, 9, 9. -/
theorem witness_DecimalAddIsBcdAddition :
    19 = (0x99#8 &&& 0x0F#8).toNat + (0x99#8 &&& 0x0F#8).toNat + true.toNat ∧
    25 = (if 0x0A ≤ 19 then ((19 + 0x06) &&& 0x0F) + 0x10 else 19) ∧
    313 = (0x99#8 &&& 0xF0#8).toNat + (0x99#8 &&& 0xF0#8).toNat + 25 ∧ 409 = (if 0xA0 ≤ 313 then 313 + 0x60 else 313) ∧
    9 < 10 ∧ 199 = 10 * 9 + 9 + (10 * 9 + 9) + true.toNat := by decide

/-- 0x00 - 0x01, all four intermediate values; and the digits 0, 0, 9, 9 with a borrow. -/
theorem witness_DecimalSubtractIsBcdSubtraction :
    (-1 : Int) = ((0x00#8 &&& 0x0F#8).toNat : Int) - (0x01#8 &&& 0x0F#8).toNat + true.toNat - 1 ∧
    (-7 : Int) = (if (-1 : Int) < 0 then (-1 - 0x06) % 16 - 0x10 else -1) ∧
    (-7 : Int) = ((0x00#8 &&& 0xF0#8).toNat : Int) - (0x01#8 &&& 0xF0#8).toNat + -7 ∧
    (-103 : Int) = (if (-7 : Int) < 0 then -7 - 0x60 else -7) ∧
    0 < 10 ∧ 9 < 10 ∧ (-100 : Int) = 10 * (0 : Nat) + (0 : Nat) - (10 * (9 : Nat) + (9 : Nat)) - (1 - (false.toNat : Nat)) := by
  decide

theorem witness_ComparesSetOnlyCarryZeroNegative : (Instr.cmpIndX 0xFF#8).operation = .CMP ∧
    (Instr.cpxAbs 0xFFFF#16).operation = .CPX ∧ (Instr.cpyImm 0x00#8).operation = .CPY ∧ nopState.a = 0x00#8 ∧
    nopState.x = 0x00#8 ∧ nopState.y = 0x00#8 := by decide

/-- The wraps 0xFF to 0x00 and 0x00 to 0xFF. -/
theorem witness_IncDecStepTheMemoryByte : (Instr.incZp 0x10#8).operation = .INC ∧
    (0x00#8).toNat = ((operandOf (.incZp 0x10#8) (boot 0x0600#16 [] [(0x0010#16, 0xFF#8)])).toNat + 1) % 256 ∧
    (Instr.decAbs 0x0010#16).operation = .DEC ∧
    (0xFF#8).toNat = ((operandOf (.decAbs 0x0010#16) nopState).toNat + 255) % 256 := by decide

theorem witness_IndexRegistersStepByOne :
    (0x00#8).toNat = (({ nopState with x := 0xFF#8 }).x.toNat + 1) % 256 ∧ (0x01#8).toNat = (nopState.y.toNat + 1) % 256 ∧
    (0xFF#8).toNat = (nopState.x.toNat + 255) % 256 ∧ (0xFF#8).toNat = (nopState.y.toNat + 255) % 256 := by decide

theorem witness_ShiftsMoveOneBitThroughCarry :
    let s := { nopState with a := 0x81#8, c := true }
    (Instr.aslAcc.operation = .ASL ∧ 0x02#8 = BitVec.ofNat 8 (2 * (operandOf .aslAcc s).toNat) ∧
      true = (operandOf .aslAcc s).getLsbD 7) ∧
    (Instr.lsrAcc.operation = .LSR ∧ 0x40#8 = BitVec.ofNat 8 ((operandOf .lsrAcc s).toNat / 2) ∧
      true = (operandOf .lsrAcc s).getLsbD 0) ∧
    (Instr.rolAcc.operation = .ROL ∧ 0x03#8 = BitVec.ofNat 8 (2 * (operandOf .rolAcc s).toNat + s.c.toNat)) ∧
    (Instr.rorAcc.operation = .ROR ∧ 0xC0#8 = BitVec.ofNat 8 ((operandOf .rorAcc s).toNat / 2 + 128 * s.c.toNat)) ∧
    Instr.aslAcc.mode = .ACC ∧ (Instr.aslAbsX 0xFFFF#16).mode ≠ .ACC := by decide

theorem witness_JmpLoadsTheProgramCounter :
    (0x0200#16).toNat = (0x02FF#16).toNat / 256 * 256 + ((0x02FF#16).toNat % 256 + 1) % 256 := by decide

theorem witness_RtsReturnsBehindThePulledAddress :
    let s := { boot 0x0600#16 [] [(0x0100#16, 0x02#8), (0x0101#16, 0x06#8)] with sp := 0xFF#8 }
    0x02#8 = s.mem.read (0x0100#16 + zext (s.sp + 1#8)) ∧ 0x06#8 = s.mem.read (0x0100#16 + zext (s.sp + 2#8)) := by decide

/-- The state after a JSR meets the premises on itself. -/
theorem witness_RtsUndoesJsr : ∃ t u, exec (.jsr 0x1234#16) nopState = .next t ∧ u ≠ t ∧ u.sp = t.sp ∧
    (∀ address : Word, address = stackAddress nopState.sp ∨ address = stackAddress (nopState.sp - 1#8) →
      u.mem.read address = t.mem.read address) :=
  ⟨_, { (nopState.pushWord 0x05FF#16) with pc := 0x1234#16, a := 0x55#8, c := true }, rfl, by decide, by decide,
    by rintro a (rfl | rfl) <;> decide⟩

theorem witness_BranchesTestOneFlag :
    ((Instr.bmi 0x80#8, nopState.n) ∈ ([(.bpl 0x80#8, !nopState.n), (.bmi 0x80#8, nopState.n), (.bvc 0x80#8, !nopState.v),
      (.bvs 0x80#8, nopState.v), (.bcc 0x80#8, !nopState.c), (.bcs 0x80#8, nopState.c), (.bne 0x80#8, !nopState.z),
      (.beq 0x80#8, nopState.z)] : List (Instr × Bool))) ∧
    0x0580#16 = BitVec.ofInt 16 ((nopState.pc.toNat : Int) + (0x80#8).toInt) := by decide

theorem witness_FlagInstructionsWriteOneFlag :
    ({ nopState with inputs := some ⟨true, false, false, false⟩ }).inputs = some ⟨true, false, false, false⟩ := rfl

theorem witness_InterruptSequenceSavesThreeBytes :
    ∃ t, ({ nopState with sp := 0x01#8 }).interruptSequence 0xFFFA#16 false = t := ⟨_, rfl⟩

theorem witness_RtiRestoresFlagsAndProgramCounter :
    let s := { boot 0x0600#16 [] [(0x01FF#16, 0xCF#8), (0x0100#16, 0x78#8), (0x0101#16, 0x56#8)] with sp := 0xFE#8 }
    0xCF#8 = s.mem.read (0x0100#16 + zext (s.sp + 1#8)) ∧ 0x78#8 = s.mem.read (0x0100#16 + zext (s.sp + 2#8)) ∧
    0x56#8 = s.mem.read (0x0100#16 + zext (s.sp + 3#8)) := by decide

/-- The state after an interrupt sequence with other registers changed. -/
theorem witness_RtiUndoesTheInterruptSequence :
    let s := { nopState with sp := 0x01#8, n := true }
    let u := { s.interruptSequence 0xFFFE#16 true with a := 0x77#8, n := false, pc := 0x1234#16 }
    u.sp = (s.interruptSequence 0xFFFE#16 true).sp ∧
    ∀ address : Word, address ∈ [stackAddress s.sp, stackAddress (s.sp - 1#8), stackAddress (s.sp - 2#8)] →
      u.mem.read address = (s.interruptSequence 0xFFFE#16 true).mem.read address := ⟨rfl, fun _ _ => rfl⟩

theorem witness_InterruptRequestsAreServicedInPriority :
    (interrupted false false false false false true true).inputs = some ⟨true, false, false, true⟩ ∧
    (idleState.present false true).inputs = some ⟨false, true, false, false⟩ ∧
    (interrupted false false false false false true false).inputs = some ⟨true, false, false, false⟩ ∧
    (interrupted false false false false false true false).i = false ∧
    (interrupted false true false false false true false).i = true := by decide

theorem witness_WithoutInputsInterruptDisableIsInert : nopState.inputs = none ∧ (∃ t, step nopState = .next t) ∧
    Instr.cli.operation ≠ .PHP ∧ Instr.cli.operation ≠ .BRK := ⟨by decide, ⟨_, rfl⟩, by decide, by decide⟩

end Sys2Proof.Tests
end

section
/-!
The state and the operations that write it (10_state.md): the status byte, `SetNZ` and `SetP`, push and pull, `new` and
`reset()`, the canonical form of memory, and which instruction writes and reads which register and flag.
-/

namespace Sys2Proof.Machine

/-! ### The status byte (R17 to R20) -/

/-- The bits of the status byte (R17). -/
theorem pByte_bits (s : State) (b : Bool) :
    (s.pByte b).getLsbD 7 = s.n ∧ (s.pByte b).getLsbD 6 = s.v ∧ (s.pByte b).getLsbD 5 = true ∧
    (s.pByte b).getLsbD 4 = b ∧ (s.pByte b).getLsbD 3 = s.d ∧ (s.pByte b).getLsbD 2 = s.i ∧
    (s.pByte b).getLsbD 1 = s.z ∧ (s.pByte b).getLsbD 0 = s.c := by
  unfold State.pByte
  generalize s.n = n, s.v = v, s.d = d, s.i = i, s.z = z, s.c = c
  revert n v b d i z c
  decide

/-- Setting I sets bit 2 of the status byte and no other. -/
theorem pByte_or_interruptBit (s : State) (b : Bool) :
    State.pByte b { s with i := true } = s.pByte b ||| 0x04#8 := by
  unfold State.pByte
  dsimp only
  generalize s.n = n, s.v = v, s.d = d, s.i = i, s.z = z, s.c = c
  revert n v b d i z c
  decide

/-- The status byte made of the flags that a byte was loaded into: bits 5 and 4 are not the byte's (R19). -/
theorem pByte_setP (s : State) (v : Byte) (b : Bool) :
    (s.setP v).pByte b = (v &&& 0xCF#8) ||| 0x20#8 ||| (BitVec.ofNat 8 b.toNat <<< 4) := by
  unfold State.pByte State.setP
  dsimp only
  revert v b
  decide +kernel

/-- No byte is both negative and zero. -/
theorem not_isNegative_and_isZero (b : Byte) : ¬(isNegative b = true ∧ isZero b = true) := by
  simp only [isNegative, isZero, decide_eq_true_eq]
  omega

/-- Settles O24: the port's registers are the state's own, and the bits are the sum's binary digits. -/
theorem statusByteHasTheFlagsAtTheirBits : Obligations.StatusByteHasTheFlagsAtTheirBits := by
  intro s b
  obtain ⟨h7, h6, h5, h4, h3, h2, h1, h0⟩ := pByte_bits s b
  exact ⟨h7, h6, h5, h4, h3, h2, h1, h0, rfl⟩

/-- Settles O25: `SetP` is the equation stated, and its status byte is read off from the byte's bits. -/
theorem setPLoadsTheFlagsFromTheirBits : Obligations.SetPLoadsTheFlagsFromTheirBits :=
  fun s v b => ⟨rfl, pByte_setP s v b⟩

/-- Settles O26: `SetNZ` shows the byte's sign and whether it is zero, which exclude each other. -/
theorem setNZShowsSignAndZero : Obligations.SetNZShowsSignAndZero := by
  intro s v
  have h : s.setNZ v = { s with n := isNegative v, z := isZero v } := by
    rw [isNegative_eq, isZero_eq, State.setNZ]
  exact ⟨h, h ▸ not_isNegative_and_isZero v⟩

/-! ### Power-up and reset (R260 to R262) -/

/-- All that `reset()` does (R261, R262). -/
theorem resetCall_eq (s : State) : s.resetCall =
    { s with
      i := true
      sp := 0xFD#8
      pc := BitVec.ofNat 16 ((s.mem.read 0xFFFD#16).toNat * 256 + (s.mem.read 0xFFFC#16).toNat)
      inputs := s.inputs.map fun r => { r with nmiPending := false }
      bus := s.bus ++ [.read 0xFFFC#16 (s.mem.read 0xFFFC#16), .read 0xFFFD#16 (s.mem.read 0xFFFD#16)] } :=
  rfl

/-- `reset()` sets bit 2 of the introspection byte and no other. -/
theorem resetCall_introspect_p (s : State) : s.resetCall.introspect.p = s.introspect.p ||| 0x04#8 :=
  pByte_or_interruptBit s false

/-- Settles O17: `new` and `reset()` are the equations stated, and I is bit 2 of the introspection byte. -/
theorem newAndResetSetOnlyTheirRegisters : Obligations.NewAndResetSetOnlyTheirRegisters :=
  ⟨fun _ _ _ _ _ _ => ⟨rfl, rfl⟩, fun s => ⟨resetCall_eq s, resetCall_introspect_p s⟩⟩

/-- Settles O18: both bytes of the vector read as an unlisted address does. -/
theorem resetStateIsNewThenReset : Obligations.ResetStateIsNewThenReset := by
  refine fun pc => ⟨?_, rfl, by decide⟩
  simp [resetCall_eq, State.reset, State.new, Memory.read, Memory.readNat, Config.unlistedByte, Config.spReset]

/-! ### The stack (R13) -/

/-- A push stores its byte at the stack address and changes no other byte. -/
theorem push_storesOnly (s : State) (b : Byte) : storesOnly (stackAddress s.sp) b s (s.push b) :=
  fun other => Memory.read_write s.mem (stackAddress s.sp) other b

/-- A pull after a push gives the byte back. -/
@[simp] theorem pulled_push (s : State) (b : Byte) : (s.push b).pulled = b := by
  simp [State.pulled_eq]

/-- A pull after a push restores the stack pointer. -/
@[simp] theorem pull_push_sp (s : State) (b : Byte) : (s.push b).pull.sp = s.sp := by
  simp [State.pull_eq]

theorem byte_sub_one_toNat (b : Byte) : (b - 1#8).toNat = (b.toNat + 255) % 256 := by
  rw [BitVec.toNat_sub, Nat.add_comm]; rfl

/-- Settles O20: the equations of push and pull, and one step of SP modulo 256. -/
theorem stackWrapsWithinPageOne : Obligations.StackWrapsWithinPageOne := fun s b =>
  ⟨stackAddress_toNat s.sp, push_storesOnly s b, byte_sub_one_toNat s.sp, State.push_eq b s, BitVec.toNat_add s.sp 1#8,
    State.pulled_eq s, State.pull_eq s, pulled_push s b, pull_push_sp s b⟩

/-! The four stack instructions (R136 to R139) as the stack's operations and a cost. -/

theorem exec_pha (s : State) : exec .pha s = .next ((s.push s.a).charge 3) := rfl
theorem exec_php (s : State) : exec .php s = .next ((s.push (s.pByte true)).charge 3) := rfl
theorem exec_pla (s : State) : exec .pla s = .next ((s.pull.loadA s.pulled).charge 4) := rfl
theorem exec_plp (s : State) : exec .plp s = .next ((s.pull.setP s.pulled).charge 4) := rfl

/-- Cycles do not change what a pull returns. -/
@[simp] theorem charge_pulled (s : State) (k : Nat) : (s.charge k).pulled = s.pulled := rfl

/-- Settles O37: a pull gives back what was pushed, and neither pull writes memory. -/
theorem pushThenPullRestores : Obligations.PushThenPullRestores := by
  intro s
  refine ⟨⟨_, _, exec_pha s, exec_pla _, ?_⟩, ⟨_, _, exec_php s, exec_plp _, ?_⟩⟩
  · refine ⟨by simp, by simp, rfl, rfl, ?_, ?_, push_storesOnly s s.a⟩
    · simp [isNegative_eq]
    · simp [isZero_eq]
  · refine ⟨fun f => ?_, ?_, ?_, ?_, ?_, push_storesOnly s (s.pByte true)⟩
    · rw [charge_flag, charge_pulled, pulled_push, setP_pByte_flag]
    all_goals simp

end Sys2Proof.Machine
end

section
/-!
The canonical form of memory is kept by every effect, and so by every step (20_memory.md R40, R41).
-/

namespace Sys2Proof.Machine

/-! ### Every effect writes memory through `Memory.write` only -/

theorem storeEffect_wf (i : Instr) (b : Byte) {s : State} (h : s.mem.wf = true) :
    (storeEffect i b s).mem.wf = true := by
  rw [storeEffect, resolved_eq]
  exact State.memWrite_wf _ _ _ h

theorem modifyEffect_wf (i : Instr) (b : Byte) {s : State} (h : s.mem.wf = true) :
    (modifyEffect i b s).mem.wf = true := by
  rw [modifyEffect, resolved_eq]
  exact State.memWrite_wf _ _ _ h

theorem shiftEffect_wf (i : Instr) (r : ShiftResult) {s : State} (h : s.mem.wf = true) :
    (shiftEffect i r s).mem.wf = true := by
  unfold shiftEffect
  split
  · simpa using h
  · rw [State.setShift_mem]
    exact modifyEffect_wf i r.value h

theorem branchEffect_mem (i : Instr) (s : State) : (branchEffect i s).mem = s.mem := by
  unfold branchEffect
  split <;> rfl

theorem effectOf_wf (i : Instr) {s : State} (h : s.mem.wf = true) : (effectOf i s).mem.wf = true := by
  unfold effectOf
  cases i.operation
  case STA | STX | STY => exact storeEffect_wf i _ h
  case INC | DEC => exact modifyEffect_wf i _ h
  case ASL | LSR | ROL | ROR => exact shiftEffect_wf i _ h
  case PHA | PHP => exact State.push_wf _ s h
  case JSR => exact State.pushWord_wf (s.pc - 1#16) s h
  case BRK => exact State.interruptSequence_wf irqBrkVector true _ h
  case BPL | BMI | BVC | BVS | BCC | BCS | BNE | BEQ => rwa [branchEffect_mem]
  case RTS => simpa [returnFromSubroutine_eq, State.pullWord_eq] using h
  case RTI => simpa [State.returnFromInterrupt_eq] using h
  case JMP => simpa [resolved_eq] using h
  case LDA | LDX | LDY | AND | ORA | EOR | BIT | ADC | SBC | CMP | CPX | CPY =>
    simpa [withOperandRead_eq, State.andA, State.oraA, State.eorA, State.bitTest, State.adc, State.sbc, State.cmpA,
      State.cmpX, State.cmpY] using h
  all_goals simpa using h

theorem serviceInterrupt_wf {s : State} (h : s.mem.wf = true) : s.serviceInterrupt.mem.wf = true := by
  rcases serviceInterrupt_cases s with ⟨-, hs, -⟩ | ⟨r, -, ⟨-, hs⟩ | ⟨-, vector, -, hs⟩⟩
  · rwa [hs]
  · rwa [hs]
  · rw [hs]
    exact State.interruptSequence_wf vector false { s with inputs := some r.examined } h

/-- Settles O19: the interrupt check, the fetch and the instruction's effect each keep the canonical form. -/
theorem stepKeepsMemoryCanonical : Obligations.StepKeepsMemoryCanonical := by
  intro s t hwf hstep
  obtain ⟨i, -, -, hexec⟩ := step_next hstep
  rw [exec_eq, fetchBytes_eq] at hexec
  cases hexec
  exact effectOf_wf i (serviceInterrupt_wf hwf)

end Sys2Proof.Machine
end

section
/-!
Which flags and registers an instruction writes: one lemma per shared operation, one per flag or register for the 56
effects (10_state.md R10 to R14, R21), and the program counter after a sequential step (R14).
-/

namespace Sys2Proof.Machine

/-! ### The flags each operation leaves (R21) -/

@[simp] theorem record_flag (s : State) (l : List PortCall) (f : StatusFlag) : (s.record l).flag f = s.flag f := by
  cases f <;> rfl

@[simp] theorem readPort_flag (s : State) (address : Word) (f : StatusFlag) :
    (s.readPort address).flag f = s.flag f := record_flag s _ f

@[simp] theorem resolve_flag (m : AddrMode) (s : State) (f : StatusFlag) : (m.resolve s).flag f = s.flag f :=
  record_flag s _ f

@[simp] theorem memWrite_flag (s : State) (address : Word) (b : Byte) (f : StatusFlag) :
    (s.memWrite address b).flag f = s.flag f := by
  cases f <;> rfl

@[simp] theorem fetch8_flag (s : State) (f : StatusFlag) : s.fetch8.flag f = s.flag f := by
  cases f <;> rfl

@[simp] theorem push_flag (s : State) (b : Byte) (f : StatusFlag) : (s.push b).flag f = s.flag f := by
  cases f <;> rfl

@[simp] theorem pull_flag (s : State) (f : StatusFlag) : s.pull.flag f = s.flag f := by
  cases f <;> rfl

@[simp] theorem interruptSequence_flag (s : State) (vector : Word) (b : Bool) (f : StatusFlag) :
    (s.interruptSequence vector b).flag f = if f = .I then true else s.flag f := by
  rw [State.interruptSequence_eq]
  cases f <;> rfl

@[simp] theorem resetCall_flag (s : State) (f : StatusFlag) :
    s.resetCall.flag f = if f = .I then true else s.flag f := by
  cases f <;> rfl

@[simp] theorem modifyEffect_flag (i : Instr) (b : Byte) (s : State) (f : StatusFlag) :
    (modifyEffect i b s).flag f = s.flag f := by
  simp [modifyEffect, resolved_eq]

@[simp] theorem withOperandRead_flag (i : Instr) (s : State) (f : StatusFlag) :
    (withOperandRead i s).flag f = s.flag f := by
  rw [withOperandRead_eq, record_flag]

@[simp] theorem branchEffect_flag (i : Instr) (s : State) (f : StatusFlag) : (branchEffect i s).flag f = s.flag f := by
  unfold branchEffect
  split
  · cases f <;> rfl
  · rfl

/-- `SetNZ` leaves the other four flags, whatever register the byte went to. -/
theorem setNZ_flag {f : StatusFlag} (hf : f ∉ [StatusFlag.N, .Z]) (b : Byte) (s : State) :
    (s.setNZ b).flag f = s.flag f := by
  cases f <;> simp_all [State.flag]

theorem loadA_flag {f : StatusFlag} (hf : f ∉ [StatusFlag.N, .Z]) (b : Byte) (s : State) :
    (s.loadA b).flag f = s.flag f := by
  cases f <;> simp_all [State.flag]

theorem loadX_flag {f : StatusFlag} (hf : f ∉ [StatusFlag.N, .Z]) (b : Byte) (s : State) :
    (s.loadX b).flag f = s.flag f := by
  cases f <;> simp_all [State.flag]

theorem loadY_flag {f : StatusFlag} (hf : f ∉ [StatusFlag.N, .Z]) (b : Byte) (s : State) :
    (s.loadY b).flag f = s.flag f := by
  cases f <;> simp_all [State.flag]

theorem bitTest_flag {f : StatusFlag} (hf : f ∉ [StatusFlag.N, .V, .Z]) (b : Byte) (s : State) :
    (s.bitTest b).flag f = s.flag f := by
  cases f <;> simp_all [State.flag, State.bitTest]

theorem setAlu_flag {f : StatusFlag} (hf : f ∉ [StatusFlag.N, .V, .Z, .C]) (r : AluResult) (s : State) :
    (s.setAlu r).flag f = s.flag f := by
  cases f <;> simp_all [State.flag]

theorem compare_flag {f : StatusFlag} (hf : f ∉ [StatusFlag.N, .Z, .C]) (r m : Byte) (s : State) :
    (s.compare r m).flag f = s.flag f := by
  cases f <;> simp_all [State.flag]

theorem setShift_flag {f : StatusFlag} (hf : f ∉ [StatusFlag.N, .Z, .C]) (r : ShiftResult) (s : State) :
    (s.setShift r).flag f = s.flag f := by
  cases f <;> simp_all [State.flag]

theorem shiftEffect_flag {f : StatusFlag} (hf : f ∉ [StatusFlag.N, .Z, .C]) (i : Instr) (r : ShiftResult) (s : State) :
    (shiftEffect i r s).flag f = s.flag f := by
  unfold shiftEffect
  split
  · rw [setShift_flag hf]
    cases f <;> rfl
  · rw [setShift_flag hf, modifyEffect_flag]

/-- Every effect leaves the flags that its row of the matrix does not mark (R21). -/
theorem effectOf_flag {i : Instr} {f : StatusFlag} (hf : f ∉ flagsWritten i.operation) (s : State) :
    (effectOf i s).flag f = s.flag f := by
  unfold effectOf
  cases hop : i.operation <;> rw [hop] at hf
  case LDA | AND | ORA | EOR => exact (loadA_flag hf _ _).trans (withOperandRead_flag i s f)
  case LDX => exact (loadX_flag hf _ _).trans (withOperandRead_flag i s f)
  case LDY => exact (loadY_flag hf _ _).trans (withOperandRead_flag i s f)
  case TXA | TYA => exact loadA_flag hf _ s
  case TAX | TSX | INX | DEX => exact loadX_flag hf _ s
  case TAY | INY | DEY => exact loadY_flag hf _ s
  case PLA => exact (loadA_flag hf _ _).trans (pull_flag s f)
  case INC | DEC => exact (setNZ_flag hf _ _).trans (modifyEffect_flag i _ s f)
  case BIT => exact (bitTest_flag hf _ _).trans (withOperandRead_flag i s f)
  case ADC | SBC => exact (setAlu_flag hf _ _).trans (withOperandRead_flag i s f)
  case CMP | CPX | CPY => exact (compare_flag hf _ _ _).trans (withOperandRead_flag i s f)
  case ASL | LSR | ROL | ROR => exact shiftEffect_flag hf i _ s
  case BPL | BMI | BVC | BVS | BCC | BCS | BNE | BEQ => exact branchEffect_flag i s f
  case STA | STX | STY => simp [storeEffect, resolved_eq]
  case PLP | RTI => cases f <;> simp [flagsWritten] at hf
  case CLC | SEC | CLI | SEI | CLD | SED | CLV => cases f <;> simp_all [flagsWritten, State.flag]
  case BRK =>
    have hI : f ≠ .I := by simpa [flagsWritten] using hf
    rw [State.breakSequence, interruptSequence_flag, if_neg hI]
    cases f <;> rfl
  case JMP => rw [resolved_eq]; cases f <;> rfl
  case TXS | PHA | PHP | JSR | RTS => cases f <;> rfl

/-- A logical shift to the right clears bit 7, and so N. -/
theorem shiftEffect_shiftRight_n (i : Instr) (b : Byte) (c : Bool) (s : State) :
    (shiftEffect i (shiftRight b c) s).n = false := by
  unfold shiftEffect
  split <;> simp [shiftRight]

/-- Settles O21: the matrix by `effectOf_flag`, the fixed values by the operation's own effect. -/
theorem flagNeutralityMatrix : Obligations.FlagNeutralityMatrix := by
  refine ⟨fun i s => ⟨_, exec_eq i s, fun f hf => ?_, ?_, ?_, ?_, ?_, ?_, ?_, ?_, ?_⟩, fun s vector b f => ?_,
    fun s m address b f => ?_⟩
  · rw [charge_flag, effectOf_flag hf]
  · rintro (h | h) <;> simp only [effectOf, h] <;> rfl
  iterate 6 · intro h; simp only [effectOf, h]; rfl
  · intro h
    simp only [effectOf, h, State.charge_n]
    exact shiftEffect_shiftRight_n i _ _ s
  · exact ⟨interruptSequence_flag s vector b f, resetCall_flag s f⟩
  · exact ⟨resolve_flag m s f, fetch8_flag s f, push_flag s b f, pull_flag s f, readPort_flag s address f,
      memWrite_flag s address b f⟩

/-! ### The registers each effect leaves (R10 to R14) -/

theorem storeEffect_eq (i : Instr) (b : Byte) (s : State) : storeEffect i b s =
    { s with
      mem := s.mem.write (eaOf i s) b
      bus := s.bus ++ pointerReadsOf i s ++ [.write (eaOf i s) b] } := by
  rw [storeEffect, resolved_eq]; rfl

theorem modifyEffect_eq (i : Instr) (b : Byte) (s : State) : modifyEffect i b s =
    { s with
      mem := s.mem.write (eaOf i s) b
      bus := s.bus ++ modifyCalls i b s } := by
  simp [modifyEffect, resolved_eq, modifyCalls, State.memWrite, State.readPort, State.record, State.readCall,
    State.memRead]

/-- Every effect leaves the registers that its instruction does not write, the program counter being past the
instruction already (R10 to R14). -/
theorem effectOf_registers (i : Instr) (s : State) :
    (writesA i = false → (effectOf i s).a = s.a) ∧ (writesX i = false → (effectOf i s).x = s.x) ∧
    (writesY i = false → (effectOf i s).y = s.y) ∧ (writesSP i = false → (effectOf i s).sp = s.sp) ∧
    (writesPC i = false → (effectOf i s).pc = s.pc) := by
  simp only [effectOf, writesA, writesX, writesY, writesSP, writesPC]
  cases i.operation
  case ASL | LSR | ROL | ROR => by_cases hm : i.mode = .ACC <;> simp [shiftEffect, hm, modifyEffect_eq]
  case BPL | BMI | BVC | BVS | BCC | BCS | BNE | BEQ => simp only [branchEffect]; split <;> simp
  case BRK => rw [State.breakSequence, State.interruptSequence_eq]; simp
  case RTI => simp [State.returnFromInterrupt_eq]
  case RTS => simp [returnFromSubroutine_eq, State.pullWord_eq]
  case JSR => simp [callSubroutine_eq, State.pushWord_eq]
  case STA | STX | STY => simp [storeEffect_eq]
  case INC | DEC => simp [stepEffect, modifyEffect_eq]
  case JMP => simp [resolved_eq]
  case LDA | LDX | LDY | AND | ORA | EOR | BIT | ADC | SBC | CMP | CPX | CPY =>
    simp [withOperandRead_eq, State.andA, State.oraA, State.eorA, State.bitTest, State.adc, State.sbc, State.cmpA,
      State.cmpX, State.cmpY]
  all_goals simp

/-- Settles O22: the cost that `exec_eq` charges touches no register. -/
theorem registersAreWrittenByTheirInstructionsOnly : Obligations.RegistersAreWrittenByTheirInstructionsOnly :=
  fun i s => ⟨_, exec_eq i s, effectOf_registers i s⟩

/-! ### Sequential steps (R14) -/

/-- Settles O28: the fetch advances the program counter by the length, and the effect leaves it there. -/
theorem sequentialStepsAdvanceByTheLength : Obligations.SequentialStepsAdvanceByTheLength := by
  rintro s u i rest rfl hdecode hseq
  obtain ⟨-, -, -, -, hpc⟩ := effectOf_registers i (s.serviceInterrupt.fetchBytes i.length)
  have hstep : step s = exec i (s.serviceInterrupt.fetchBytes i.length) := by
    rw [step, fetch_instr _ i rest hdecode]
  refine ⟨_, hstep.trans (exec_eq _ _), ?_⟩
  rw [State.charge_pc, hpc hseq, fetchBytes_eq, BitVec.toNat_add, BitVec.toNat_ofNat, Nat.add_mod_mod]

end Sys2Proof.Machine
end

section
/-!
What an instruction reads of A, X and Y (10_state.md R10 to R12): an instruction that is not listed as reading a register
gives the same result whatever the register holds.
-/

namespace Sys2Proof.Machine

/-- The three registers that hold data or an index. -/
inductive Register where
  | A | X | Y

/-- The instructions that read the register. -/
def Register.readBy : Register → Instr → Bool
  | .A => readsA
  | .X => readsX
  | .Y => readsY

/-- The instructions that write the register. -/
def Register.writtenBy : Register → Instr → Bool
  | .A => writesA
  | .X => writesX
  | .Y => writesY

/-- The state with another byte in the register. -/
def State.put (r : Register) (b : Byte) (s : State) : State :=
  match r with
  | .A => { s with a := b }
  | .X => { s with x := b }
  | .Y => { s with y := b }

/-! ### The operand -/

/-- The addressing mode's name (R66). -/
def AddrMode.mode : AddrMode → Mode
  | .zp _ => .ZP
  | .zpX _ => .ZPX
  | .zpY _ => .ZPY
  | .abs _ => .ABS
  | .absX _ => .ABSX
  | .absY _ => .ABSY
  | .ind _ => .IND
  | .indX _ => .INDX
  | .indY _ => .INDY

theorem mode_of_addrModeOf {i : Instr} {m : AddrMode} (h : addrModeOf i = some m) : i.mode = m.mode := by
  cases i <;> cases h <;> rfl

/-- The instruction finds the same operand in `s'` as in `s`: address, page cross, port reads and byte. -/
structure SameOperand (i : Instr) (s s' : State) : Prop where
  ea : eaOf i s' = eaOf i s
  crossed : crossedOf i s' = crossedOf i s
  pointerReads : pointerReadsOf i s' = pointerReadsOf i s
  reads : operandReads i s' = operandReads i s
  operand : operandOf i s' = operandOf i s

/-- The resolver reads the index registers of its mode only. -/
theorem AddrMode.put_same {r : Register} {i : Instr} {m : AddrMode} (h : r.readBy i = false)
    (hm : addrModeOf i = some m) (b : Byte) (s : State) :
    m.ea (s.put r b) = m.ea s ∧ m.crossed (s.put r b) = m.crossed s ∧ m.pointerReads (s.put r b) = m.pointerReads s := by
  have hmode := mode_of_addrModeOf hm
  simp only [AddrMode.ea, AddrMode.crossed, AddrMode.pointerReads, State.zeroPagePointer, State.readCall, State.memRead]
  cases r
  case A => cases m <;> simp [State.put]
  case X => cases m <;> simp_all [Register.readBy, readsX, AddrMode.mode, State.put]
  case Y => cases m <;> simp_all [Register.readBy, readsY, AddrMode.mode, State.put]

theorem put_mem (r : Register) (b : Byte) (s : State) : (s.put r b).mem = s.mem := by cases r <;> rfl

theorem sameOperand_put {r : Register} {i : Instr} (h : r.readBy i = false) (b : Byte) (s : State) :
    SameOperand i s (s.put r b) := by
  have hacc : i.mode = .ACC → (s.put r b).a = s.a := by
    intro hm
    cases r
    case A => simp [Register.readBy, readsA, hm] at h
    case X | Y => rfl
  have hea : eaOf i (s.put r b) = eaOf i s := by
    unfold eaOf
    cases hm : addrModeOf i with
    | none => rfl
    | some m => simp [(AddrMode.put_same h hm b s).1]
  refine ⟨hea, ?_, ?_, ?_, ?_⟩
  case refine_4 =>
    unfold operandOf
    rw [hea, put_mem]
    split
    · rfl
    · next hm => exact hacc hm
    · rfl
  all_goals
    simp only [crossedOf, pointerReadsOf, operandReads, put_mem]
    cases hm : addrModeOf i with
    | none => rfl
    | some m =>
      obtain ⟨h1, h2, h3⟩ := AddrMode.put_same h hm b s
      simp [h1, h2, h3]

/-! ### The effect and the cost -/

theorem put_c (r : Register) (b : Byte) (s : State) : (s.put r b).c = s.c := by cases r <;> rfl

theorem branchTaken_put (r : Register) (i : Instr) (b : Byte) (s : State) :
    branchTaken i (s.put r b) = branchTaken i s := by cases r <;> rfl

theorem branchEffect_put (r : Register) (i : Instr) (b : Byte) (s : State) :
    branchEffect i (s.put r b) = (branchEffect i s).put r b := by
  unfold branchEffect
  rw [branchTaken_put]
  split
  · cases r <;> rfl
  · rfl

theorem modifyEffect_put {r : Register} {i : Instr} (h : r.readBy i = false) (v b : Byte) (s : State) :
    modifyEffect i v (s.put r b) = (modifyEffect i v s).put r b := by
  have same := sameOperand_put h b s
  rw [modifyEffect, modifyEffect, resolved_eq, resolved_eq, same.ea, same.pointerReads]
  cases r <;> rfl

theorem storeEffect_put {r : Register} {i : Instr} (h : r.readBy i = false) (v b : Byte) (s : State) :
    storeEffect i v (s.put r b) = (storeEffect i v s).put r b := by
  have same := sameOperand_put h b s
  rw [storeEffect, storeEffect, resolved_eq, resolved_eq, same.ea, same.pointerReads]
  cases r <;> rfl

theorem shiftEffect_put {r : Register} {i : Instr} (h : r.readBy i = false) (v : ShiftResult) (b : Byte) (s : State) :
    shiftEffect i v (s.put r b) = (shiftEffect i v s).put r b := by
  unfold shiftEffect
  split
  · next hm =>
    cases r
    case A => simp [Register.readBy, readsA, hm] at h
    case X | Y => rfl
  · rw [modifyEffect_put h]
    cases r <;> rfl

/-- The effect of an instruction that does not read the register: the register keeps its byte, or is written with
something that does not depend on it. -/
theorem effectOf_put {r : Register} {i : Instr} (h : r.readBy i = false) (b : Byte) (s : State) :
    effectOf i (s.put r b) = if r.writtenBy i then effectOf i s else (effectOf i s).put r b := by
  have same := sameOperand_put h b s
  simp only [effectOf, stepEffect, storeEffect_put h, modifyEffect_put h, shiftEffect_put h, branchEffect_put, put_c,
    withOperandRead_eq, resolved_eq, same.ea, same.pointerReads, same.reads, same.operand]
  cases r <;> cases hop : i.operation
  -- the operations that read the register are excluded by `h`, and so is a shift of the accumulator where it is A
  all_goals simp [Register.readBy, readsA, readsX, readsY, hop] at h
  all_goals simp [Register.writtenBy, writesA, writesX, writesY, hop, h]
  all_goals rfl

theorem cost_put {r : Register} {i : Instr} (h : r.readBy i = false) (b : Byte) (s : State) :
    costOf i (s.put r b) + branchExtraOf i (s.put r b) = costOf i s + branchExtraOf i s := by
  have hbranch : branchExtraOf i (s.put r b) = branchExtraOf i s := by cases r <;> rfl
  rw [costOf, costOf, (sameOperand_put h b s).crossed, hbranch]

/-- The same for `exec`: its cost does not depend on the register either. -/
theorem exec_put {r : Register} {i : Instr} (h : r.readBy i = false) (b : Byte) {s t : State} (ht : exec i s = .next t) :
    exec i (s.put r b) = .next (if r.writtenBy i then t else t.put r b) := by
  rw [exec_eq] at ht
  cases ht
  rw [exec_eq, effectOf_put h, cost_put h]
  split
  · rfl
  · cases r <;> rfl

/-- Settles O23: `exec_put` at each of the three registers. -/
theorem registersAreReadByTheirInstructionsOnly : Obligations.RegistersAreReadByTheirInstructionsOnly :=
  fun i s b => ⟨_, exec_eq i s, fun h => exec_put (r := .A) h b (exec_eq i s),
    fun h => exec_put (r := .X) h b (exec_eq i s), fun h => exec_put (r := .Y) h b (exec_eq i s)⟩

end Sys2Proof.Machine
end

section
/-!
What an instruction and a step do to memory, by their port calls (20_memory.md R40 to R48): the calls replayed on the
memory before give the memory after, only the stored addresses change, and the calls are as many as R45 lists.
-/

namespace Sys2Proof.Machine

/-! ### Replaying port calls (R48) -/

/-- Replaying one list of calls and then another is replaying them together. -/
theorem Memory.replay_append {l l' : List PortCall} {m m' m'' : Memory} (h : Memory.replay l m = some m')
    (h' : Memory.replay l' m' = some m'') : Memory.replay (l ++ l') m = some m'' := by
  induction l generalizing m with
  | nil =>
    cases h
    exact h'
  | cons call rest ih =>
    cases call with
    | read address value =>
      simp only [Memory.replay, List.cons_append] at h ⊢
      split at h
      · next hread =>
        rw [if_pos hread]
        exact ih h
      · cases h
    | write address value => exact ih h

/-- Replaying the read of an address leaves memory as it is. -/
theorem Memory.replay_readCall (s : State) (address : Word) (rest : List PortCall) :
    Memory.replay (s.readCall address :: rest) s.mem = Memory.replay rest s.mem :=
  if_pos rfl

theorem Memory.replay_pointerReads (m : AddrMode) (s : State) : Memory.replay (m.pointerReads s) s.mem = some s.mem := by
  cases m
  case ind | indX | indY => simp only [AddrMode.pointerReads, Memory.replay_readCall, Memory.replay]
  all_goals rfl

/-- The address a port call stores to, if it is a write. -/
def PortCall.storedAt : PortCall → Option Word
  | .read _ _ => none
  | .write address _ => some address

/-- A replay changes no byte that none of its calls stores to. -/
theorem Memory.read_of_replay {l : List PortCall} {m m' : Memory} {other : Word} (h : Memory.replay l m = some m')
    (hother : other ∉ l.filterMap PortCall.storedAt) : m'.read other = m.read other := by
  induction l generalizing m with
  | nil => cases h; rfl
  | cons call rest ih =>
    cases call with
    | read address value =>
      simp only [Memory.replay] at h
      split at h
      · exact ih h hother
      · cases h
    | write address value =>
      obtain ⟨hne, hrest⟩ : other ≠ address ∧ other ∉ rest.filterMap PortCall.storedAt := by
        simpa [PortCall.storedAt] using hother
      rw [ih h hrest, Memory.read_write_other m value hne]

/-! ### Transitions whose port calls account for memory -/

/-- The port calls made between `s` and `t`, replayed on the memory of `s`, give the memory of `t`. -/
def Accounted (s t : State) : Prop :=
  ∃ calls, t.bus = s.bus ++ calls ∧ Memory.replay calls s.mem = some t.mem

/-- A transition that makes no port call and leaves memory as it is. -/
theorem accounted_of_same {s t : State} (hbus : t.bus = s.bus) (hmem : t.mem = s.mem) : Accounted s t :=
  ⟨[], by rw [hbus, List.append_nil], congrArg some hmem.symm⟩

theorem Accounted.trans {s t u : State} (h : Accounted s t) (h' : Accounted t u) : Accounted s u := by
  obtain ⟨calls, hbus, hmem⟩ := h
  obtain ⟨calls', hbus', hmem'⟩ := h'
  exact ⟨calls ++ calls', by rw [hbus', hbus, List.append_assoc], Memory.replay_append hmem hmem'⟩

theorem accounted_resolve (m : AddrMode) (s : State) : Accounted s (m.resolve s) :=
  ⟨_, rfl, Memory.replay_pointerReads m s⟩

theorem accounted_readPort (address : Word) (s : State) : Accounted s (s.readPort address) :=
  ⟨_, rfl, Memory.replay_readCall s address []⟩

theorem accounted_memWrite (address : Word) (b : Byte) (s : State) : Accounted s (s.memWrite address b) :=
  ⟨_, rfl, rfl⟩

/-! The other operations are made of these. A change of a register or a flag on the way is neither a port call nor a
change of memory, so `Accounted` unfolds to the same with it and without it. -/

theorem accounted_push (b : Byte) (s : State) : Accounted s (s.push b) := accounted_memWrite (stackAddress s.sp) b s

theorem accounted_pull (s : State) : Accounted s s.pull := accounted_readPort (stackAddress (s.sp + 1#8)) s

theorem accounted_pushWord (w : Word) (s : State) : Accounted s (s.pushWord w) :=
  (accounted_push _ s).trans (accounted_push _ _)

theorem accounted_pullWord (s : State) : Accounted s s.pullWord := (accounted_pull s).trans (accounted_pull _)

theorem accounted_loadVector (vector : Word) (s : State) : Accounted s (s.loadVector vector) :=
  ⟨_, rfl, by simp only [State.loadVector_mem, Memory.replay_readCall, Memory.replay]⟩

theorem accounted_interruptSequence (vector : Word) (b : Bool) (s : State) :
    Accounted s (s.interruptSequence vector b) := by
  have hpushed : Accounted s ((s.pushWord s.pc).push ((s.pushWord s.pc).pByte b)) :=
    (accounted_pushWord s.pc s).trans (accounted_push _ _)
  exact hpushed.trans (accounted_loadVector vector { (s.pushWord s.pc).push ((s.pushWord s.pc).pByte b) with i := true })

theorem accounted_fetchBytes (k : Nat) (s : State) : Accounted s (s.fetchBytes k) := by
  induction k generalizing s with
  | zero => exact accounted_of_same rfl rfl
  | succ k ih =>
    have hfetch : Accounted s s.fetch8 := accounted_readPort s.pc s
    exact hfetch.trans (ih s.fetch8)

theorem accounted_serviceInterrupt (s : State) : Accounted s s.serviceInterrupt := by
  rcases serviceInterrupt_cases s with ⟨-, hs, -⟩ | ⟨r, -, ⟨-, hs⟩ | ⟨-, vector, -, hs⟩⟩
  · rw [hs]
    exact accounted_of_same rfl rfl
  · rw [hs]
    exact accounted_of_same rfl rfl
  · rw [hs]
    exact accounted_interruptSequence vector false { s with inputs := some r.examined }

/-! ### The effects (R44, R45) -/

theorem accounted_resolved (i : Instr) (s : State) : Accounted s (resolved i s) := by
  unfold resolved
  split
  · exact accounted_of_same rfl rfl
  · exact accounted_resolve _ s

theorem accounted_withOperandRead (i : Instr) (s : State) : Accounted s (withOperandRead i s) := by
  unfold withOperandRead
  split
  · exact accounted_of_same rfl rfl
  · exact (accounted_resolve _ s).trans (accounted_readPort _ _)

theorem accounted_storeEffect (i : Instr) (b : Byte) (s : State) : Accounted s (storeEffect i b s) :=
  (accounted_resolved i s).trans (accounted_memWrite _ b _)

theorem accounted_modifyEffect (i : Instr) (b : Byte) (s : State) : Accounted s (modifyEffect i b s) :=
  ((accounted_resolved i s).trans (accounted_readPort _ _)).trans (accounted_memWrite _ b _)

theorem accounted_shiftEffect (i : Instr) (r : ShiftResult) (s : State) : Accounted s (shiftEffect i r s) := by
  unfold shiftEffect
  split
  · exact accounted_of_same rfl rfl
  · exact (accounted_modifyEffect i r.value s).trans (accounted_of_same rfl rfl)

theorem accounted_branchEffect (i : Instr) (s : State) : Accounted s (branchEffect i s) := by
  unfold branchEffect
  split <;> exact accounted_of_same rfl rfl

theorem accounted_effectOf (i : Instr) (s : State) : Accounted s (effectOf i s) := by
  unfold effectOf
  cases i.operation
  case LDA | LDX | LDY | AND | ORA | EOR | BIT | ADC | SBC | CMP | CPX | CPY => exact accounted_withOperandRead i s
  case STA | STX | STY => exact accounted_storeEffect i _ s
  case INC | DEC => exact accounted_modifyEffect i _ s
  case ASL | LSR | ROL | ROR => exact accounted_shiftEffect i _ s
  case BPL | BMI | BVC | BVS | BCC | BCS | BNE | BEQ => exact accounted_branchEffect i s
  case PHA | PHP => exact accounted_push _ s
  case PLA | PLP => exact accounted_pull s
  case JMP => exact accounted_resolved i s
  case JSR => exact accounted_pushWord (s.pc - 1#16) s
  case RTS => exact accounted_pullWord s
  case BRK => exact accounted_interruptSequence irqBrkVector true { s with pc := s.pc + 1#16 }
  case RTI => exact (accounted_pull s).trans (accounted_pullWord (s.pull.setP s.pulled))
  all_goals exact accounted_of_same rfl rfl

/-- Settles O14: the interrupt check, the fetch and the instruction's effect are each accounted for by their calls. -/
theorem portCallsAccountForMemory : Obligations.PortCallsAccountForMemory := by
  intro s t hstep
  obtain ⟨i, -, -, hexec⟩ := step_next hstep
  rw [exec_eq] at hexec
  cases hexec
  exact ((accounted_serviceInterrupt s).trans (accounted_fetchBytes i.length _)).trans (accounted_effectOf i _)

/-! ### The addresses stored to -/

/-- An instruction's own port calls are what accounts for its effect on memory. -/
theorem replay_callsOf (i : Instr) (s : State) : Memory.replay (callsOf i s) s.mem = some (effectOf i s).mem := by
  obtain ⟨calls, hbus, hmem⟩ := accounted_effectOf i s
  rw [effectOf_bus] at hbus
  rwa [List.append_cancel_left hbus]

theorem pointerReadsOf_storedAt (i : Instr) (s : State) : (pointerReadsOf i s).filterMap PortCall.storedAt = [] := by
  unfold pointerReadsOf
  cases addrModeOf i with
  | none => rfl
  | some m => cases m <;> rfl

theorem operandReads_storedAt (i : Instr) (s : State) : (operandReads i s).filterMap PortCall.storedAt = [] := by
  unfold operandReads
  cases addrModeOf i with
  | none => rfl
  | some m => cases m <;> rfl

theorem modifyCalls_storedAt (i : Instr) (b : Byte) (s : State) :
    (modifyCalls i b s).filterMap PortCall.storedAt = [eaOf i s] := by
  rw [modifyCalls, List.filterMap_append, pointerReadsOf_storedAt]
  rfl

/-- The writes among an instruction's port calls are at its stored addresses, in order. -/
theorem callsOf_storedAt (i : Instr) (s : State) :
    (callsOf i s).filterMap PortCall.storedAt = storedAddresses i s := by
  unfold callsOf storedAddresses
  cases i.operation
  case LDA | LDX | LDY | AND | ORA | EOR | BIT | ADC | SBC | CMP | CPX | CPY => exact operandReads_storedAt i s
  case JMP => exact pointerReadsOf_storedAt i s
  case STA | STX | STY =>
    rw [List.filterMap_append, pointerReadsOf_storedAt]
    rfl
  case INC | DEC => exact modifyCalls_storedAt i _ s
  case ASL | LSR | ROL | ROR => by_cases hacc : i.mode = .ACC <;> simp [shiftCalls, hacc, modifyCalls_storedAt]
  case BRK => simp [sub1_sub1, State.readCall, PortCall.storedAt]
  all_goals rfl

/-- Settles O27: the instruction's port calls store to its stored addresses only. -/
theorem memoryChangesOnlyAtStoredAddresses : Obligations.MemoryChangesOnlyAtStoredAddresses := by
  refine fun i s => ⟨_, exec_eq i s, fun address haddress => ?_⟩
  rw [← callsOf_storedAt] at haddress
  exact Memory.read_of_replay (replay_callsOf i s) haddress

/-! ### The number of port calls (R45) -/

/-- The count listed for each of the 151 instructions: its own calls and the bytes of its fetch. -/
theorem callsOf_length (i : Instr) (s : State) : (callsOf i s).length + i.length = portCallCount i := by
  cases i <;> rfl

/-- The largest count is BRK's: its opcode byte, three pushes and the two bytes of its vector. -/
theorem portCallCount_le (i : Instr) : portCallCount i ≤ 6 := by
  cases i <;> exact Nat.le_of_ble_eq_true rfl

/-- An interrupt sequence is three pushes and the two reads of its vector (R233). -/
theorem serviceInterrupt_bus_length (s : State) :
    s.serviceInterrupt.bus.length = s.bus.length + if interruptDue s then 5 else 0 := by
  rcases serviceInterrupt_cases s with ⟨-, hs, hdue⟩ | ⟨r, -, ⟨hdue, hs⟩ | ⟨hdue, vector, -, hs⟩⟩
  · simp [hs, hdue]
  · simp [hs, hdue]
  · rw [hs, hdue, State.charge_bus, State.interruptSequence_eq]
    simp

theorem fetchBytes_bus_length (k : Nat) (s : State) : (s.fetchBytes k).bus.length = s.bus.length + k := by
  simp [fetchBytes_eq]

/-- After the interrupt check a step makes the port calls listed for the instruction it runs. -/
theorem step_bus_length {s t : State} (h : step s = .next t) :
    ∃ i, t.bus.length = s.serviceInterrupt.bus.length + portCallCount i := by
  obtain ⟨i, -, -, hexec⟩ := step_next h
  rw [exec_eq] at hexec
  cases hexec
  refine ⟨i, ?_⟩
  rw [State.charge_bus, effectOf_bus, List.length_append, fetchBytes_bus_length, Nat.add_assoc, Nat.add_comm i.length,
    callsOf_length]

/-- Settles O15: each instruction's count by `callsOf_length`, a step's bound from the largest of them. -/
theorem portCallCountsPerInstruction : Obligations.PortCallCountsPerInstruction := by
  refine ⟨fun i s => ⟨_, exec_eq i s, ?_⟩, fun s t hstep => ?_⟩
  · rw [State.charge_bus, effectOf_bus, List.length_append, Nat.add_assoc, callsOf_length]
  · obtain ⟨i, hlength⟩ := step_bus_length hstep
    have hcount := portCallCount_le i
    have hcheck := serviceInterrupt_bus_length s
    omega

end Sys2Proof.Machine
end

section
/-!
The codec (30_encoding.md R60 to R65, R82, R91 to R96): decoding inverts encoding and the other way round, which opcode
bytes are unknown, and what an opcode's descriptor says.
-/

namespace Sys2Proof

/-! ### The round trip (R60 to R65) -/

/-- Decoding an encoding: the opcode's row takes as many operand bytes as the encoder wrote, and rebuilds the
instruction from them. -/
theorem decode_encode_append (i : Instr) (rest : List Byte) : decode (encode i ++ rest) = .ok (i, rest) := by
  obtain ⟨r, hrow, hcount, hmake⟩ := findRow_opcode i
  have hlong : ¬ (i.operandBytes ++ rest).length < i.operandBytes.length := by
    rw [List.length_append]
    omega
  rw [encode, List.cons_append, decode, hrow]
  simp only [hcount, if_neg hlong, hmake, List.drop_left]

/-- All that the decoder accepts: an opcode byte with a row, followed by at least the operand bytes of its mode. -/
theorem decode_eq_ok {bytes rest : List Byte} {i : Instr} (h : decode bytes = .ok (i, rest)) :
    ∃ opcode tail r, bytes = opcode :: tail ∧ findRow opcode = some r ∧
      r.descriptor.mode.operandCount ≤ tail.length ∧ i = r.make (tail.getD 0 0#8) (tail.getD 1 0#8) ∧
      rest = tail.drop r.descriptor.mode.operandCount := by
  cases bytes with
  | nil => cases h
  | cons opcode tail =>
    cases hrow : findRow opcode with
    | none => simp [decode, hrow] at h
    | some r =>
      by_cases hshort : tail.length < r.descriptor.mode.operandCount
      · simp [decode, hrow, hshort] at h
      · simp only [decode, hrow, if_neg hshort] at h
        cases h
        exact ⟨opcode, tail, r, rfl, hrow, Nat.le_of_not_lt hshort, rfl, rfl⟩

/-- The two bytes the decoder hands to a row begin with the operand bytes that are there. -/
theorem take_getD_pair {n : Nat} {tail : List Byte} (hn : n ≤ 2) (htail : n ≤ tail.length) :
    [tail.getD 0 0#8, tail.getD 1 0#8].take n = tail.take n := by
  match n, tail with
  | 0, _ => rfl
  | 1, _ :: _ => rfl
  | 2, _ :: _ :: _ => rfl

/-- What decodes to an instruction is its encoding, followed by the bytes left over. -/
theorem eq_encode_append_of_decode {bytes rest : List Byte} {i : Instr} (h : decode bytes = .ok (i, rest)) :
    bytes = encode i ++ rest := by
  obtain ⟨opcode, tail, r, rfl, hrow, hlong, rfl, rfl⟩ := decode_eq_ok h
  obtain ⟨hmem, hopcode⟩ := findRow_some hrow
  obtain ⟨hop, hoperands⟩ := rows_make r hmem (tail.getD 0 0#8) (tail.getD 1 0#8)
  rw [encode, hop, hopcode, hoperands, take_getD_pair (operandCount_le _) hlong, List.cons_append,
    List.take_append_drop]

/-- Settles O1: the row that the opcode byte selects rebuilds the instruction. -/
theorem decodeInvertsEncode : Obligations.DecodeInvertsEncode := decode_encode_append

/-- Settles O2: what a row makes has the row's opcode byte and the operand bytes it was made from. -/
theorem encodeInvertsDecode : Obligations.EncodeInvertsDecode := fun _ _ _ => eq_encode_append_of_decode

/-- Settles O4: each of the words is the encoding of its instruction, with no byte after it. -/
theorem decoderReadsTheSpecsWords : Obligations.DecoderReadsTheSpecsWords :=
  ⟨decode_encode_append (.ldaImm 0x42#8) [], decode_encode_append (.ldaZp 0x10#8) [],
    decode_encode_append (.ldaZpX 0x10#8) [], decode_encode_append (.ldxZpY 0x10#8) [],
    decode_encode_append (.ldaAbs 0x1234#16) [], decode_encode_append (.ldaAbsX 0x1234#16) [],
    decode_encode_append (.ldaAbsY 0x1234#16) [], decode_encode_append (.ldaIndX 0x10#8) [],
    decode_encode_append (.ldaIndY 0x10#8) [], decode_encode_append (.jmpInd 0x1234#16) [],
    decode_encode_append .aslAcc [], decode_encode_append (.bne 0x03#8) [], decode_encode_append .brk [],
    decode_encode_append (.staAbs 0x0200#16) [], decode_encode_append .pla [],
    decode_encode_append (.adcImm 0x42#8) [], decode_encode_append (.incAbsX 0x12FF#16) []⟩

/-! ### What a descriptor says (R62, R82, R90 to R92, R104 to R106) -/

/-- Every instruction's operation exists in its mode (R92). -/
theorem wellFormed_eq_true (i : Instr) : i.wellFormed = true := by
  cases i <;> rfl

/-- The least and the largest cost of a row's instruction: its base cycles, one more with the penalty flag, two more for
a branch to another page. -/
theorem rows_cycles : ∀ r ∈ opcodeTable, 2 ≤ r.descriptor.baseCycles ∧
    r.descriptor.baseCycles + (if r.descriptor.pageCrossPenalty then 1 else 0) +
      (if r.descriptor.mode = .REL then 2 else 0) ≤ 7 := by
  decide +kernel

/-- The same bounds for the descriptor that the decoder gives. -/
theorem descriptorOf_cycles {opcode : Byte} {d : Descriptor} (h : descriptorOf opcode = some d) : 2 ≤ d.baseCycles ∧
    d.baseCycles + (if d.pageCrossPenalty then 1 else 0) + (if d.mode = .REL then 2 else 0) ≤ 7 := by
  obtain ⟨r, hrow, rfl⟩ := Option.map_eq_some_iff.mp h
  exact rows_cycles r (findRow_some hrow).1

/-- Settles O5: `descriptorOf_opcode` names the pair, `rows_cycles` bounds its base cycles. -/
theorem descriptorNamesOperationModeAndLength : Obligations.DescriptorNamesOperationModeAndLength := by
  intro i
  obtain ⟨d, hd, hmode, hop⟩ := descriptorOf_opcode i
  obtain ⟨hleast, hmost⟩ := descriptorOf_cycles hd
  exact ⟨wellFormed_eq_true i, encode_length i, d, hd, hop, hmode, hleast, by omega⟩

end Sys2Proof
end

section
/-!
The step and the decoder (30_encoding.md R64, R65, R93, 40_execution_engine.md R101 to R106): the 105 unknown opcodes,
the instruction a step runs, and that every instruction completes.
-/

namespace Sys2Proof.Machine

/-! ### Unknown opcodes (R93) -/

/-- The bytes without a descriptor are those of R93. -/
theorem descriptorOf_eq_none_iff : ∀ b : Byte, descriptorOf b = none ↔ b ∈ unknownOpcodes := by decide +kernel

theorem step_of_unknown {s : State}
    (h : descriptorOf (s.serviceInterrupt.mem.read s.serviceInterrupt.pc) = none) :
    step s = .fault (.unknownOpcode (s.serviceInterrupt.mem.read s.serviceInterrupt.pc) s.serviceInterrupt.pc) := by
  rw [step, fetch_unknown _ h]

/-- A step that fetches an opcode with a descriptor gives a next state. -/
theorem step_of_known {s : State}
    (h : descriptorOf (s.serviceInterrupt.mem.read s.serviceInterrupt.pc) ≠ none) : ∃ t, step s = .next t := by
  rcases step_cases s with ⟨hnone, -⟩ | ⟨i, -, -, hstep⟩
  · exact absurd hnone h
  · exact ⟨_, hstep.trans (exec_eq i _)⟩

/-- Settles O3: the 256 bytes are compared with the list; the step faults on a byte without a descriptor alone. -/
theorem unknownOpcodesAreTheListedBytes : Obligations.UnknownOpcodesAreTheListedBytes := by
  refine ⟨rfl, by decide +kernel, descriptorOf_eq_none_iff, ?_⟩
  rintro s u rfl
  rw [← descriptorOf_eq_none_iff]
  exact ⟨step_of_unknown, step_of_known⟩

/-! ### The instruction a step runs (R64, R65, R101) -/

/-- A step runs what the bytes at the program counter decode to, once they have been fetched. -/
theorem step_of_decode {s : State} {i : Instr} {rest : List Byte}
    (h : decode (shownBytes s.serviceInterrupt) = .ok (i, rest)) :
    step s = exec i (s.serviceInterrupt.fetchBytes i.length) := by
  rw [step, fetch_instr _ i rest h]

theorem length_le_three (i : Instr) : i.length ≤ 3 := by
  have := operandCount_le i.mode
  rw [Instr.length, Mode.length]
  omega

/-- The bytes from the program counter on, as many as asked for. -/
def bytesAtPc (s : State) (n : Nat) : List Byte := (List.range n).map fun k => s.mem.read (s.pc + BitVec.ofNat 16 k)

theorem bytesAtPc_three (s : State) : bytesAtPc s 3 = shownBytes s := by
  simp [bytesAtPc, shownBytes, List.range_succ]

/-- Where an instruction's encoding stands at the program counter, the decoder is shown that instruction. -/
theorem decode_shownBytes_of_encode {s : State} {i : Instr} (h : encode i = bytesAtPc s i.length) :
    ∃ rest, decode (shownBytes s) = .ok (i, rest) := by
  have hhead : encode i = (shownBytes s).take i.length := by
    rw [h, ← bytesAtPc_three, bytesAtPc, bytesAtPc, ← List.map_take, List.take_range,
      Nat.min_eq_left (length_le_three i)]
  refine ⟨(shownBytes s).drop i.length, ?_⟩
  rw [← decode_encode_append i, hhead, List.take_append_drop]

/-- Settles O6: the encoding at the program counter is one way for the bytes to decode. -/
theorem stepRunsTheDecodedInstruction : Obligations.StepRunsTheDecodedInstruction := by
  refine ⟨serviceInterrupt_absent, ?_⟩
  rintro s u i rfl h
  have hdecode : ∃ rest, decode (shownBytes s.serviceInterrupt) = .ok (i, rest) :=
    h.elim id decode_shownBytes_of_encode
  obtain ⟨rest, hrest⟩ := hdecode
  rw [step_of_decode hrest, fetchBytes_eq]

/-! ### A word placed for the next step (R264) -/

theorem decode_of_decodeTableWord {nbits w : Nat} {i : Instr} (h : decodeTableWord nbits w = some i) :
    ∃ rest, decode [tableByte nbits w 0, tableByte nbits w 1, tableByte nbits w 2] = .ok (i, rest) := by
  unfold decodeTableWord at h
  split at h
  · next j rest hdecode =>
    cases h
    exact ⟨rest, hdecode⟩
  · cases h

/-- With no request due, the interrupt check does nothing but look at the inputs. -/
theorem serviceInterrupt_of_not_due {s : State} (h : interruptDue s = false) :
    ∃ inputs, s.serviceInterrupt = { s with inputs := inputs } := by
  rcases serviceInterrupt_cases s with ⟨-, hs, -⟩ | ⟨r, -, ⟨-, hs⟩ | ⟨hdue, -⟩⟩
  · exact ⟨s.inputs, hs⟩
  · exact ⟨_, hs⟩
  · rw [h] at hdue
    cases hdue

/-- Placing bytes withdraws every request. -/
theorem interruptDue_placeBytes (b0 b1 b2 : Byte) (s : State) : interruptDue (s.placeBytes b0 b1 b2) = false := by
  cases h : s.inputs <;> simp [interruptDue, State.placeBytes, h, InterruptInputs.withdrawn]

/-- The three bytes placed stand at three different addresses, so the decoder is shown all of them. -/
theorem shownBytes_placeBytes (b0 b1 b2 : Byte) (s : State) : shownBytes (s.placeBytes b0 b1 b2) = [b0, b1, b2] := by
  have h01 : s.pc ≠ s.pc + 1#16 := by bv_omega
  have h02 : s.pc ≠ s.pc + 2#16 := by bv_omega
  have h12 : s.pc + 1#16 ≠ s.pc + 2#16 := by bv_omega
  simp [shownBytes, State.placeBytes, Memory.read_write, h01, h02, h12]

/-- Settles O16: no request is due, so the bytes placed are the ones fetched, and the fetch only reads. -/
theorem placedWordIsRunByTheNextStep : Obligations.PlacedWordIsRunByTheNextStep := by
  intro s nbits w i hi
  obtain ⟨rest, hdecode⟩ := decode_of_decodeTableWord hi
  have hidle : interruptDue (s.withFetchWord nbits w) = false := interruptDue_placeBytes _ _ _ s
  obtain ⟨inputs, hcheck⟩ := serviceInterrupt_of_not_due hidle
  have hshown : decode (shownBytes (s.withFetchWord nbits w).serviceInterrupt) = .ok (i, rest) := by
    rw [← shownBytes_placeBytes _ _ _ s] at hdecode
    rwa [hcheck]
  refine ⟨_, step_of_decode hshown, ?_⟩
  rw [hcheck, fetchBytes_eq]
  exact ⟨rfl, rfl, rfl, rfl, rfl, rfl, rfl, fun f => by cases f <;> rfl⟩

/-! ### Every instruction completes (R94, R102 to R106) -/

/-- A branch is the only instruction that is taken. -/
theorem mode_of_branchTaken {i : Instr} {s : State} (h : branchTaken i s = true) : i.mode = .REL := by
  cases i
  case bpl | bmi | bvc | bvs | bcc | bcs | bne | beq => rfl
  all_goals exact absurd h Bool.false_ne_true

theorem branchExtraOf_le (i : Instr) (s : State) : branchExtraOf i s ≤ if i.mode = .REL then 2 else 0 := by
  unfold branchExtraOf
  cases htaken : branchTaken i s with
  | false => exact Nat.zero_le _
  | true =>
    rw [if_pos (mode_of_branchTaken htaken)]
    dsimp only
    split_ifs <;> omega

/-- The penalty of R105 is one cycle at most, and none without the descriptor's flag. -/
theorem costOf_bounds {i : Instr} {d : Descriptor} (h : descriptorOf i.opcode = some d) (s : State) :
    d.baseCycles ≤ costOf i s ∧ costOf i s ≤ d.baseCycles + if d.pageCrossPenalty then 1 else 0 := by
  have hcost : costOf i s = d.baseCycles + if d.pageCrossPenalty && crossedOf i s then 1 else 0 := by
    simp [costOf, baseCyclesOf, penaltyFlagOf, h]
  rw [hcost]
  cases d.pageCrossPenalty <;> cases crossedOf i s <;> simp

/-- What an instruction costs (R104 to R106). -/
theorem cost_bounds (i : Instr) (s : State) :
    2 ≤ costOf i s + branchExtraOf i s ∧ costOf i s + branchExtraOf i s ≤ 7 := by
  obtain ⟨d, hd, hmode, -⟩ := descriptorOf_opcode i
  have hrow := descriptorOf_cycles hd
  have hcost := costOf_bounds hd s
  have hextra := branchExtraOf_le i s
  rw [hmode] at hrow
  omega

/-- Settles O8: every arm is an effect, which leaves the inputs and the cycle total, charged with its cost. -/
theorem everyInstructionCompletes : Obligations.EveryInstructionCompletes := by
  intro i s
  obtain ⟨hleast, hmost⟩ := cost_bounds i s
  refine ⟨_, exec_eq i s, effectOf_inputs i s, ?_⟩
  rw [State.charge_cycles, effectOf_cycles]
  omega

end Sys2Proof.Machine
end

section
/-!
The resolver (30_encoding.md R66 to R80): effective addresses as numbers, page crosses, and the pointer reads.
-/

namespace Sys2Proof.Machine

/-! ### Addresses as numbers (R41, R80) -/

theorem add_zext_toNat (w : Word) (b : Byte) : (w + zext b).toNat = (w.toNat + b.toNat) % 65536 := by
  rw [BitVec.toNat_add, zext_toNat]

/-- An index added within page 0 (R71, R72, R78). -/
theorem zext_add_toNat (z b : Byte) : (zext (z + b)).toNat = (z.toNat + b.toNat) % 256 := by
  rw [zext_toNat, BitVec.toNat_add]

/-- Two addresses lie in different pages when their numbers do. -/
theorem hiByte_bne_iff (w w' : Word) : (hiByte w != hiByte w') = true ↔ w.toNat / 256 ≠ w'.toNat / 256 := by
  rw [bne_iff_ne, ne_eq, BitVec.toNat_eq, hiByte_toNat, hiByte_toNat]

/-- Adding an index changes the page exactly when the low byte carries, at the top of memory too. -/
theorem hiByte_add_zext_bne_iff (w : Word) (b : Byte) :
    (hiByte (w + zext b) != hiByte w) = true ↔ 256 ≤ w.toNat % 256 + b.toNat := by
  have hw := w.isLt
  have hb := b.isLt
  rw [hiByte_bne_iff, add_zext_toNat]
  omega

/-- A mode without a pointer resolves without a port call. -/
theorem resolve_of_no_pointer {m : AddrMode} {s : State} (h : m.pointerReads s = []) : m.resolve s = s := by
  rw [AddrMode.resolve, h, State.record_nil]

/-- Settles O29: the sums are of bytes, and the modes have no pointer. -/
theorem zeroPageAddressesWrapInPageZero : Obligations.ZeroPageAddressesWrapInPageZero := by
  intro s z
  refine ⟨zext_toNat z, zext_add_toNat z s.x, zext_add_toNat z s.y, ?_⟩
  simp only [List.forall_mem_cons]
  have hmode {m : AddrMode} (hcross : m.crossed s = false) (hreads : m.pointerReads s = []) :
      m.crossed s = false ∧ m.resolve s = s := ⟨hcross, resolve_of_no_pointer hreads⟩
  exact ⟨hmode rfl rfl, hmode rfl rfl, hmode rfl rfl, List.forall_mem_nil _⟩

/-- Settles O30: a cross is a carry out of the low byte, and the modes have no pointer. -/
theorem absoluteAddressesWrapAndReportCrosses : Obligations.AbsoluteAddressesWrapAndReportCrosses := by
  intro s w
  refine ⟨rfl, rfl, add_zext_toNat w s.x, add_zext_toNat w s.y, hiByte_bne_iff _ w, hiByte_add_zext_bne_iff w s.x,
    hiByte_bne_iff _ w, hiByte_add_zext_bne_iff w s.y, ?_⟩
  simp only [List.forall_mem_cons]
  exact ⟨resolve_of_no_pointer rfl, resolve_of_no_pointer rfl, resolve_of_no_pointer rfl, List.forall_mem_nil _⟩

/-! ### Pointers (R77 to R79) -/

/-- The second byte of JMP's pointer stays in the first one's page (R77). -/
theorem nextInPage_toNat (p : Word) : (nextInPage p).toNat = p.toNat / 256 * 256 + (p.toNat % 256 + 1) % 256 := by
  rw [nextInPage, joinBytes_toNat, BitVec.toNat_add, hiByte_toNat, loByte_toNat]
  rfl

/-- The second byte of a zero-page pointer stays in page 0 (R78, R79). -/
theorem zext_add_one_toNat (b : Byte) : (zext (b + 1#8)).toNat = (b.toNat + 1) % 256 :=
  zext_add_toNat b 1#8

theorem zeroPagePointer_toNat (b : Byte) (s : State) : (s.zeroPagePointer b).toNat =
    (s.mem.read (zext (b + 1#8))).toNat * 256 + (s.mem.read (zext b)).toNat :=
  joinBytes_toNat _ _

/-- INDY crosses a page when its index carries out of the pointer's low byte, the first one read (R79, R80). -/
theorem crossed_indY_iff (z : Byte) (s : State) :
    (AddrMode.indY z).crossed s = true ↔ 256 ≤ (s.mem.read (zext z)).toNat + s.y.toNat := by
  have hlow := (s.mem.read (zext z)).isLt
  have hmod : (s.zeroPagePointer z).toNat % 256 = (s.mem.read (zext z)).toNat := by
    rw [zeroPagePointer_toNat]
    omega
  rw [AddrMode.crossed, hiByte_add_zext_bne_iff, hmod]

/-- Settles O31: the addresses that the hypotheses give as numbers are those of the model's pointer reads. -/
theorem pointersAreReadWithinTheirPage : Obligations.PointersAreReadWithinTheirPage := by
  refine fun s p p' z q q' => ⟨fun hp' => ?_, fun hq hq' => ?_, fun hq hq' => ?_⟩
  · obtain rfl : p' = nextInPage p := BitVec.eq_of_toNat_eq (hp'.trans (nextInPage_toNat p).symm)
    exact ⟨joinBytes_toNat _ _, rfl, rfl⟩
  · obtain rfl : q = zext (z + s.x) := BitVec.eq_of_toNat_eq (by rw [hq, zext_add_toNat])
    obtain rfl : q' = zext (z + s.x + 1#8) := BitVec.eq_of_toNat_eq (by rw [hq', zext_toNat, zext_add_one_toNat])
    exact ⟨zeroPagePointer_toNat _ s, rfl, rfl⟩
  · obtain rfl : q = zext z := BitVec.eq_of_toNat_eq (by rw [hq, zext_toNat])
    obtain rfl : q' = zext (z + 1#8) := BitVec.eq_of_toNat_eq (by rw [hq', zext_toNat, zext_add_one_toNat])
    refine ⟨?_, crossed_indY_iff z s, rfl⟩
    rw [AddrMode.ea, add_zext_toNat, zeroPagePointer_toNat]

end Sys2Proof.Machine
end

section
/-!
The eight branches (45_control_flow.md R193 to R201): whichever flag an instruction tests, `branch` moves the program
counter by the signed offset and charges by the pages.
-/

namespace Sys2Proof.Machine

/-- The branch target as the offset's signed value gives it (R73, R193). -/
theorem branchTarget_eq_ofInt (next : Word) (o : Byte) :
    branchTarget next o = BitVec.ofInt 16 ((next.toNat : Int) + o.toInt) := by
  refine BitVec.eq_of_toInt_eq ?_
  rw [BitVec.toInt_eq_toNat_bmod, branchTarget, add_sext_toNat, BitVec.toInt_ofInt]
  exact Int.emod_bmod _ 65536

/-- What a taken branch costs, by the numbers of the two pages (R106). -/
theorem two_add_branchCycles (next : Word) (o : Byte) :
    2 + branchCycles next o = if (branchTarget next o).toNat / 256 = next.toNat / 256 then 3 else 4 := by
  unfold branchCycles
  simp only [hiByte_bne_iff]
  split_ifs <;> omega

/-- All that a branch of 2 cycles does (R193). -/
theorem branch_two_eq (cond : Bool) (o : Byte) (s : State) : branch 2 cond o s = .next (if cond
    then { s.spent (if (branchTarget s.pc o).toNat / 256 = s.pc.toNat / 256 then 3 else 4) [] with
      pc := branchTarget s.pc o }
    else s.spent 2 []) := by
  rw [branch, two_add_branchCycles]
  cases cond <;> simp [finish, State.charge, State.spent]

/-- The eight branches are `branch` at the flag and the value that each tests (R194 to R201). -/
theorem exec_branch (s : State) (o : Byte) :
    ∀ p ∈ [(Instr.bpl o, !s.n), (.bmi o, s.n), (.bvc o, !s.v), (.bvs o, s.v), (.bcc o, !s.c), (.bcs o, s.c),
      (.bne o, !s.z), (.beq o, s.z)], exec p.1 s = branch 2 p.2 o s := by
  simp only [List.forall_mem_cons]
  exact ⟨rfl, rfl, rfl, rfl, rfl, rfl, rfl, rfl, List.forall_mem_nil _⟩

/-- Settles O53: the rows stand in the table, and the eight arms are one `branch`. -/
theorem branchesTestOneFlag : Obligations.BranchesTestOneFlag := by
  refine ⟨rfl, rfl, rfl, rfl, rfl, rfl, rfl, rfl, ?_⟩
  rintro s o i cond target hi rfl
  rw [exec_branch s o _ hi, branch_two_eq, branchTarget_eq_ofInt]

end Sys2Proof.Machine
end

section
/-!
What instructions and steps cost (40_execution_engine.md R104 to R106, 60_exceptions.md R239, R241), and that no transition
reads the cycle total or the record of port calls.
-/

namespace Sys2Proof.Machine

/-! ### The cost of an instruction and of a step -/

/-- Settles O9: `exec_eq` charges the cost to an effect that leaves the total; the 256 bytes are compared with the list. -/
theorem costIsBaseCyclesAndPenalties : Obligations.CostIsBaseCyclesAndPenalties := by
  refine ⟨fun i s => ⟨_, exec_eq i s, ?_⟩, ?_⟩
  · rw [State.charge_cycles, effectOf_cycles, Nat.add_assoc]
  · simp only [← Option.any_eq_true]
    decide +kernel

/-- An interrupt sequence adds 7 cycles, the check alone none (R239, R241). -/
theorem serviceInterrupt_cycles (s : State) :
    s.serviceInterrupt.cycles = s.cycles + if interruptDue s then 7 else 0 := by
  rcases serviceInterrupt_cases s with ⟨-, hs, hdue⟩ | ⟨r, -, ⟨hdue, hs⟩ | ⟨hdue, vector, -, hs⟩⟩
  · simp [hs, hdue]
  · simp [hs, hdue]
  · rw [hs, hdue, State.charge_cycles, State.interruptSequence_eq]
    rfl

/-- Settles O10: the fetch and the effect cost nothing, so the instruction's cost is all that follows the check. -/
theorem stepCostsTwoToFourteenCycles : Obligations.StepCostsTwoToFourteenCycles := by
  intro s t hstep
  obtain ⟨i, -, -, hexec⟩ := step_next hstep
  rw [exec_eq] at hexec
  cases hexec
  have hcost := cost_bounds i (s.serviceInterrupt.fetchBytes i.length)
  have hfetch : (s.serviceInterrupt.fetchBytes i.length).cycles = s.serviceInterrupt.cycles := by rw [fetchBytes_eq]
  rw [State.charge_cycles, effectOf_cycles, hfetch]
  exact ⟨by omega, by omega, serviceInterrupt_cycles s⟩

/-! ### The cycle total and the record of port calls (R104, R110) -/

/-- The state with another cycle total and another record of port calls. -/
def State.withOutputs (k : Nat) (l : List PortCall) (s : State) : State := { s with cycles := k, bus := l }

/-- At `s` the transition adds the same cycles and port calls to whatever total and record stand there, and does nothing
else that depends on them. -/
def AddsOnly (f : State → State) (s : State) : Prop :=
  ∃ n calls, ∀ k l, f (s.withOutputs k l) = (f s).withOutputs (k + n) (l ++ calls)

theorem AddsOnly.comp {f g : State → State} {s : State} (hg : AddsOnly g (f s)) (hf : AddsOnly f s) :
    AddsOnly (fun u => g (f u)) s := by
  obtain ⟨n, calls, hf⟩ := hf
  obtain ⟨n', calls', hg⟩ := hg
  refine ⟨n + n', calls ++ calls', fun k l => ?_⟩
  dsimp only
  rw [hf, hg, Nat.add_assoc, List.append_assoc]

/-- What is added shows in the total and the record that stand in `s` itself. -/
theorem AddsOnly.eq_withOutputs {f : State → State} {s : State} (h : AddsOnly f s) :
    ∃ calls, (f s).bus = s.bus ++ calls ∧ s.cycles ≤ (f s).cycles ∧
      ∀ k l, f (s.withOutputs k l) = (f s).withOutputs (k + ((f s).cycles - s.cycles)) (l ++ calls) := by
  obtain ⟨n, calls, h⟩ := h
  have hself : f s = (f s).withOutputs (s.cycles + n) (s.bus ++ calls) := h s.cycles s.bus
  have hcycles : (f s).cycles = s.cycles + n := congrArg State.cycles hself
  refine ⟨calls, congrArg State.bus hself, by omega, fun k l => ?_⟩
  rw [h, hcycles, Nat.add_sub_cancel_left]

/-- Cycles charged before such a transition can be charged after it. -/
theorem AddsOnly.charge {f : State → State} {s : State} (h : AddsOnly f s) (k : Nat) :
    f (s.charge k) = (f s).charge k := by
  obtain ⟨calls, hbus, hcycles, h⟩ := h.eq_withOutputs
  calc f (s.charge k) = f (s.withOutputs (s.cycles + k) s.bus) := rfl
    _ = (f s).withOutputs ((f s).cycles + k) (f s).bus := by rw [h, hbus]; congr 1; omega
    _ = (f s).charge k := rfl

/-- It is enough that `f` is another transition from `s'`, whatever total and record stand in the two states. -/
theorem AddsOnly.of_eq {f g : State → State} {s s' : State} (hg : AddsOnly g s') (hs : f s = g s')
    (h : ∀ k l, f (s.withOutputs k l) = g (s'.withOutputs k l)) : AddsOnly f s := by
  obtain ⟨n, calls, hg⟩ := hg
  exact ⟨n, calls, fun k l => by rw [h, hg, hs]⟩

theorem addsOnly_id (s : State) : AddsOnly id s := ⟨0, [], fun k l => by rw [List.append_nil]; rfl⟩

theorem addsOnly_charge (n : Nat) (s : State) : AddsOnly (State.charge n) s :=
  ⟨n, [], fun k l => by rw [List.append_nil]; rfl⟩

theorem addsOnly_fetch8 (s : State) : AddsOnly State.fetch8 s := ⟨0, [s.readCall s.pc], fun _ _ => rfl⟩

theorem addsOnly_fetchBytes (n : Nat) (s : State) : AddsOnly (State.fetchBytes n) s := by
  induction n generalizing s with
  | zero => exact addsOnly_id s
  | succ n ih => exact (ih s.fetch8).comp (addsOnly_fetch8 s)

theorem addsOnly_interruptSequence (vector : Word) (b : Bool) (s : State) :
    AddsOnly (State.interruptSequence vector b) s := by
  refine ⟨0, ((s.withOutputs 0 []).interruptSequence vector b).bus, fun k l => ?_⟩
  simp [State.interruptSequence, State.pushWord, State.push_eq, State.pByte, State.loadVector, State.withOutputs,
    State.readCall, State.memRead]

/-- The interrupt check tests the inputs and I only (R239). -/
theorem addsOnly_serviceInterrupt (s : State) : AddsOnly State.serviceInterrupt s := by
  cases hr : s.inputs with
  | none => exact (addsOnly_id s).of_eq (serviceInterrupt_absent s hr) fun k l => serviceInterrupt_absent _ hr
  | some r =>
    have htaken (vector : Word) := (addsOnly_charge interruptCycles _).comp
      (addsOnly_interruptSequence vector false { s with inputs := some r.examined })
    cases hn : r.nmiDue with
    | true => exact (htaken nmiVector).of_eq (serviceInterrupt_nmi s r hr hn) fun k l => serviceInterrupt_nmi _ r hr hn
    | false =>
      cases hi : r.irq && !s.i with
      | true =>
        exact (htaken irqBrkVector).of_eq (serviceInterrupt_irq s r hr hn hi) fun k l =>
          serviceInterrupt_irq _ r hr hn hi
      | false =>
        exact (addsOnly_id { s with inputs := some r.examined }).of_eq (serviceInterrupt_idle s r hr hn hi) fun k l =>
          serviceInterrupt_idle _ r hr hn hi

/-- An unknown opcode adds only the check's cycles and calls and its one read (R231, R241). -/
theorem addsOnly_afterUnknownOpcode (s : State) : AddsOnly State.afterUnknownOpcode s :=
  (addsOnly_fetch8 _).comp (addsOnly_serviceInterrupt s)

theorem callsOf_withOutputs (i : Instr) (k : Nat) (l : List PortCall) (s : State) :
    callsOf i (s.withOutputs k l) = callsOf i s := by
  cases i <;> rfl

theorem cost_withOutputs (i : Instr) (k : Nat) (l : List PortCall) (s : State) :
    costOf i (s.withOutputs k l) + branchExtraOf i (s.withOutputs k l) = costOf i s + branchExtraOf i s := by
  cases i <;> rfl

theorem branchEffect_withOutputs_rest (i : Instr) (k : Nat) (l : List PortCall) (s : State) :
    (branchEffect i (s.withOutputs k l)).withOutputs 0 [] = (branchEffect i s).withOutputs 0 [] := by
  unfold branchEffect
  rw [show branchTaken i (s.withOutputs k l) = branchTaken i s from rfl]
  split <;> rfl

/-- Beside the total and the record themselves, no effect depends on them. -/
theorem effectOf_withOutputs_rest (i : Instr) (k : Nat) (l : List PortCall) (s : State) :
    (effectOf i (s.withOutputs k l)).withOutputs 0 [] = (effectOf i s).withOutputs 0 [] := by
  cases i
  case bpl | bmi | bvc | bvs | bcc | bcs | bne | beq => exact branchEffect_withOutputs_rest _ k l s
  all_goals rfl

theorem addsOnly_effectOf (i : Instr) (s : State) : AddsOnly (effectOf i) s := by
  refine ⟨0, callsOf i s, fun k l => ?_⟩
  calc effectOf i (s.withOutputs k l)
      = ((effectOf i (s.withOutputs k l)).withOutputs 0 []).withOutputs (effectOf i (s.withOutputs k l)).cycles
          (effectOf i (s.withOutputs k l)).bus := rfl
    _ = (effectOf i s).withOutputs (k + 0) (l ++ callsOf i s) := by
      rw [effectOf_withOutputs_rest, effectOf_cycles, effectOf_bus, callsOf_withOutputs]; rfl

/-- The state after an instruction: its effect, charged with its cost. -/
def afterExec (i : Instr) (s : State) : State := (effectOf i s).charge (costOf i s + branchExtraOf i s)

theorem exec_eq_afterExec (i : Instr) (s : State) : exec i s = .next (afterExec i s) := exec_eq i s

theorem addsOnly_afterExec (i : Instr) (s : State) : AddsOnly (afterExec i) s :=
  ((addsOnly_charge (costOf i s + branchExtraOf i s) _).comp (addsOnly_effectOf i s)).of_eq rfl fun k l => by
    rw [afterExec, cost_withOutputs]

/-! ### The step -/

/-- The bytes the decoder is shown, and where, do not depend on the total or the record. -/
theorem serviceInterrupt_withOutputs_fetch (k : Nat) (l : List PortCall) (s : State) :
    (s.withOutputs k l).serviceInterrupt.pc = s.serviceInterrupt.pc ∧
    (s.withOutputs k l).serviceInterrupt.mem = s.serviceInterrupt.mem := by
  obtain ⟨n, calls, h⟩ := addsOnly_serviceInterrupt s
  rw [h]
  exact ⟨rfl, rfl⟩

/-- A step that gives a next state adds its cycles and port calls, and does nothing else that depends on them. -/
theorem addsOnly_of_step {s t : State} (h : step s = .next t) : ∃ f : State → State, AddsOnly f s ∧ f s = t ∧
    ∀ k l, step (s.withOutputs k l) = .next (f (s.withOutputs k l)) := by
  obtain ⟨i, rest, hdecode, hexec⟩ := step_next h
  rw [exec_eq_afterExec] at hexec
  cases hexec
  refine ⟨_, (addsOnly_afterExec i _).comp ((addsOnly_fetchBytes i.length _).comp (addsOnly_serviceInterrupt s)), rfl,
    fun k l => ?_⟩
  obtain ⟨hpc, hmem⟩ := serviceInterrupt_withOutputs_fetch k l s
  have hshown : decode (shownBytes (s.withOutputs k l).serviceInterrupt) = .ok (i, rest) := by
    rwa [shownBytes, hpc, hmem]
  rw [step_of_decode hshown, exec_eq_afterExec]

/-- The only fault is that of an unknown opcode at the program counter (R230). -/
theorem step_fault {s : State} {f : Fault} (h : step s = .fault f) :
    descriptorOf (s.serviceInterrupt.mem.read s.serviceInterrupt.pc) = none := by
  rcases step_cases s with ⟨hnone, -⟩ | ⟨i, -, -, hexec⟩
  · exact hnone
  · rw [hexec, exec_eq] at h
    cases h

theorem step_fault_withOutputs {s : State} {f : Fault} (h : step s = .fault f) (k : Nat) (l : List PortCall) :
    step (s.withOutputs k l) = .fault f := by
  have hnone := step_fault h
  obtain ⟨hpc, hmem⟩ := serviceInterrupt_withOutputs_fetch k l s
  rw [← h, step_of_unknown hnone, ← hpc, ← hmem]
  exact step_of_unknown (by rwa [hpc, hmem])

/-- Settles O13: the check, the fetch and the instruction each add only. -/
theorem cyclesAndPortRecordAreNeverRead : Obligations.CyclesAndPortRecordAreNeverRead := by
  refine fun s k l => ⟨fun t hstep => ?_, fun f hfault => step_fault_withOutputs hfault k l⟩
  obtain ⟨f, hadds, rfl, hf⟩ := addsOnly_of_step hstep
  obtain ⟨calls, hbus, hcycles, hout⟩ := hadds.eq_withOutputs
  exact ⟨calls, hbus, hcycles, (hf k l).trans (congrArg _ (hout k l))⟩

end Sys2Proof.Machine
end

section
/-!
Runs (40_execution_engine.md R100, R107, R108): a run is a run of steps with their request inputs given (60_exceptions.md
R236), runs compose, and their totals are bounded.
-/

namespace Sys2Proof.Machine

/-! ### One step of a run -/

theorem step_next_or_fault (s : State) : (∃ t, step s = .next t) ∨ ∃ f, step s = .fault f := by
  rcases step_cases s with ⟨-, hfault⟩ | ⟨i, -, -, hexec⟩
  · exact .inr ⟨_, hfault⟩
  · exact .inl ⟨_, hexec.trans (exec_eq i _)⟩

theorem runStepsWith_cons_next {l : RequestLevels} {s t : State} (rest : List RequestLevels)
    (h : step (s.present l.irq l.nmi) = .next t) : runStepsWith (l :: rest) s = runStepsWith rest t := by
  rw [runStepsWith, stepWith, h]

theorem runStepsWith_cons_fault {l : RequestLevels} {s : State} {f : Fault} (rest : List RequestLevels)
    (h : step (s.present l.irq l.nmi) = .fault f) :
    runStepsWith (l :: rest) s = ⟨(s.present l.irq l.nmi).afterUnknownOpcode, some f⟩ := by
  rw [runStepsWith, stepWith, h]

theorem runSteps_succ_next {s t : State} (n : Nat) (h : step s = .next t) : runSteps (n + 1) s = runSteps n t := by
  rw [runSteps, h]

theorem runSteps_succ_fault {s : State} {f : Fault} (n : Nat) (h : step s = .fault f) :
    runSteps (n + 1) s = ⟨s.afterUnknownOpcode, some f⟩ := by
  rw [runSteps, h]

/-! ### Levels that stand -/

/-- Presenting these levels changes nothing: they stand already, or there are no inputs. -/
def Standing (l : RequestLevels) (s : State) : Prop := s.present l.irq l.nmi = s

theorem exists_standing (s : State) : ∃ l, Standing l s := by
  cases h : s.inputs with
  | none => exact ⟨⟨false, false⟩, present_absent _ _ s h⟩
  | some r => exact ⟨⟨r.irq, r.nmi⟩, present_same s r h⟩

/-- A step keeps the levels (log 5). -/
theorem standing_step {l : RequestLevels} {s t : State} (hs : Standing l s) (h : step s = .next t) : Standing l t := by
  have hinputs := step_inputs h
  cases hr : s.inputs with
  | none => exact present_absent _ _ t (by rw [hinputs, hr]; rfl)
  | some r =>
    have hlevels : { r with irq := l.irq, nmi := l.nmi } = r := by
      have := congrArg State.inputs hs
      rw [present_inputs, hr] at this
      exact Option.some.inj this
    rw [← hlevels] at hr
    exact present_same t _ (by rw [hinputs, hr]; rfl)

theorem standing_runSteps {l : RequestLevels} {n : Nat} {s : State} (hs : Standing l s)
    (h : (runSteps n s).error = none) : Standing l (runSteps n s).state := by
  induction n generalizing s with
  | zero => exact hs
  | succ n ih =>
    rcases step_next_or_fault s with ⟨t, ht⟩ | ⟨f, hf⟩
    · rw [runSteps_succ_next n ht] at h ⊢
      exact ih (standing_step hs ht) h
    · rw [runSteps_succ_fault n hf] at h
      cases h

/-- Presenting levels that stand is presenting none. -/
theorem runStepsWith_of_standing {ls : List RequestLevels} {s : State} (h : ∀ l ∈ ls, Standing l s) :
    runStepsWith ls s = runSteps ls.length s := by
  induction ls generalizing s with
  | nil => rfl
  | cons l rest ih =>
    have hl : s.present l.irq l.nmi = s := h l (List.mem_cons_self ..)
    rw [List.length_cons]
    rcases step_next_or_fault s with ⟨t, ht⟩ | ⟨f, hf⟩
    · rw [runStepsWith_cons_next rest (by rw [hl]; exact ht), runSteps_succ_next _ ht]
      exact ih fun l' hl' => standing_step (h l' (List.mem_cons_of_mem l hl')) ht
    · rw [runStepsWith_cons_fault rest (by rw [hl]; exact hf), runSteps_succ_fault _ hf, hl]

theorem runWith_of_standing {ls : List RequestLevels} {s : State} (h : ∀ l ∈ ls, Standing l s) :
    runWith ls s = run ls.length s :=
  runStepsWith_of_standing (s := { s with cycles := 0 }) fun l hl => congrArg (State.withOutputs 0 s.bus) (h l hl)

/-- `run(n)` is the run that presents the standing levels at every step. -/
theorem runWith_replicate {l : RequestLevels} {s : State} (h : Standing l s) (n : Nat) :
    runWith (List.replicate n l) s = run n s := by
  rw [runWith_of_standing fun l' hl' => List.eq_of_mem_replicate hl' ▸ h, List.length_replicate]

/-! ### Composition (R100, R108) -/

/-- Where no error stops the first steps, the next ones start where these end. -/
theorem runStepsWith_append {ls : List RequestLevels} {s : State} (ms : List RequestLevels)
    (h : (runStepsWith ls s).error = none) :
    runStepsWith (ls ++ ms) s = runStepsWith ms (runStepsWith ls s).state := by
  induction ls generalizing s with
  | nil => rfl
  | cons l rest ih =>
    rw [List.cons_append]
    rcases step_next_or_fault (s.present l.irq l.nmi) with ⟨t, ht⟩ | ⟨f, hf⟩
    · rw [runStepsWith_cons_next _ ht] at h ⊢
      rw [runStepsWith_cons_next _ ht, ih h]
    · rw [runStepsWith_cons_fault rest hf] at h
      cases h

/-- After an error no further step is attempted. -/
theorem runStepsWith_append_of_error {ls : List RequestLevels} {s : State} (ms : List RequestLevels)
    (h : (runStepsWith ls s).error ≠ none) : runStepsWith (ls ++ ms) s = runStepsWith ls s := by
  induction ls generalizing s with
  | nil => exact absurd rfl h
  | cons l rest ih =>
    rw [List.cons_append]
    rcases step_next_or_fault (s.present l.irq l.nmi) with ⟨t, ht⟩ | ⟨f, hf⟩
    · rw [runStepsWith_cons_next _ ht] at h ⊢
      rw [runStepsWith_cons_next _ ht, ih h]
    · rw [runStepsWith_cons_fault _ hf, runStepsWith_cons_fault _ hf]

/-- The steps of a run do not depend on the total they start from, to which theirs is added. -/
theorem runStepsWith_charge (ls : List RequestLevels) (k : Nat) (s : State) : runStepsWith ls (s.charge k) =
    ⟨(runStepsWith ls s).state.charge k, (runStepsWith ls s).error⟩ := by
  induction ls generalizing s with
  | nil => rfl
  | cons l rest ih =>
    have hpresent : (s.charge k).present l.irq l.nmi = (s.present l.irq l.nmi).charge k := rfl
    rcases step_next_or_fault (s.present l.irq l.nmi) with ⟨t, ht⟩ | ⟨f, hf⟩
    · obtain ⟨g, hadds, rfl, hg⟩ := addsOnly_of_step ht
      have hcharged : step ((s.present l.irq l.nmi).charge k) = .next ((g (s.present l.irq l.nmi)).charge k) := by
        rw [← hadds.charge]
        exact hg _ _
      rw [runStepsWith_cons_next rest ht, runStepsWith_cons_next rest (hpresent ▸ hcharged), ih]
    · have hcharged : step ((s.present l.irq l.nmi).charge k) = .fault f := step_fault_withOutputs hf _ _
      rw [runStepsWith_cons_fault rest hf, runStepsWith_cons_fault rest (hpresent ▸ hcharged), hpresent,
        (addsOnly_afterUnknownOpcode _).charge]

theorem runWith_append {ls : List RequestLevels} {s : State} (ms : List RequestLevels)
    (h : (runWith ls s).error = none) : runWith (ls ++ ms) s =
      ⟨{ (runWith ms (runWith ls s).state).state with
          cycles := (runWith ls s).state.cycles + (runWith ms (runWith ls s).state).state.cycles },
        (runWith ms (runWith ls s).state).error⟩ := by
  have hzero (u : State) : u = State.charge u.cycles { u with cycles := 0 } := by
    rw [State.charge, Nat.zero_add]
  rw [runWith, runStepsWith_append ms h, hzero (runStepsWith ls _).state, runStepsWith_charge, State.charge,
    Nat.add_comm]
  rfl

/-- Settles O11: composition of `runWith`, of which `run` is the case where the standing levels are presented. -/
theorem runsCompose : Obligations.RunsCompose := by
  intro a b s
  obtain ⟨l, hl⟩ := exists_standing s
  refine ⟨rfl, fun h => ?_, fun h => ?_,
    fun ls ms => ⟨runWith_append ms, runStepsWith_append_of_error ms, fun hnone => ?_⟩,
    fun r hr => runWith_replicate (l := ⟨r.irq, r.nmi⟩) (present_same s r hr) a⟩
  · have hl' : Standing l (run a s).state := standing_runSteps (congrArg (State.withOutputs 0 s.bus) hl) h
    rw [← runWith_replicate hl (a + b), ← runWith_replicate hl' b, ← runWith_replicate hl a, List.replicate_add]
    exact runWith_append _ (by rwa [runWith_replicate hl])
  · rw [← runWith_replicate hl (a + b), ← runWith_replicate hl a, List.replicate_add]
    exact runStepsWith_append_of_error _ (by rwa [← runWith_replicate hl a] at h)
  · exact runWith_of_standing fun l _ => present_absent l.irq l.nmi s hnone

/-! ### Totals (R100, R104, R107) -/

/-- The most that a step costs. -/
def maxStepCycles (s : State) : Nat := if s.inputs = none then 7 else 14

theorem maxStepCycles_le (s : State) : maxStepCycles s ≤ 14 := by
  unfold maxStepCycles
  split <;> omega

theorem serviceInterrupt_cycles_le (s : State) : s.serviceInterrupt.cycles + 7 ≤ s.cycles + maxStepCycles s := by
  rw [serviceInterrupt_cycles, maxStepCycles]
  cases h : s.inputs with
  | none => simp [interruptDue, h]
  | some r => cases interruptDue s <;> simp

theorem maxStepCycles_present (irq nmi : Bool) (s : State) : maxStepCycles (s.present irq nmi) = maxStepCycles s := by
  simp [maxStepCycles]

theorem maxStepCycles_step {s t : State} (h : step s = .next t) : maxStepCycles t = maxStepCycles s := by
  simp [maxStepCycles, step_inputs h]

theorem runStepsWith_cycles_le (ls : List RequestLevels) (s : State) :
    (runStepsWith ls s).state.cycles ≤ s.cycles + maxStepCycles s * ls.length := by
  induction ls generalizing s with
  | nil => exact Nat.le_refl _
  | cons l rest ih =>
    have hcheck := serviceInterrupt_cycles_le (s.present l.irq l.nmi)
    rw [maxStepCycles_present, present_cycles] at hcheck
    rw [List.length_cons, Nat.mul_succ]
    rcases step_next_or_fault (s.present l.irq l.nmi) with ⟨t, ht⟩ | ⟨f, hf⟩
    · have hrest := ih t
      obtain ⟨-, hstep, -⟩ := stepCostsTwoToFourteenCycles _ t ht
      rw [maxStepCycles_step ht, maxStepCycles_present] at hrest
      rw [runStepsWith_cons_next rest ht]
      omega
    · rw [runStepsWith_cons_fault rest hf, State.afterUnknownOpcode, State.fetch8_cycles]
      omega

theorem le_runStepsWith_cycles {ls : List RequestLevels} {s : State} (h : (runStepsWith ls s).error = none) :
    s.cycles + 2 * ls.length ≤ (runStepsWith ls s).state.cycles := by
  induction ls generalizing s with
  | nil => exact Nat.le_refl _
  | cons l rest ih =>
    rcases step_next_or_fault (s.present l.irq l.nmi) with ⟨t, ht⟩ | ⟨f, hf⟩
    · rw [runStepsWith_cons_next rest ht] at h ⊢
      have hrest := ih h
      obtain ⟨hstep, -, hcheck⟩ := stepCostsTwoToFourteenCycles _ t ht
      rw [present_cycles] at hcheck
      rw [List.length_cons]
      omega
    · rw [runStepsWith_cons_fault rest hf] at h
      cases h

/-- The total of a run lies between 2 cycles and the most that a step costs, for each of its steps. -/
theorem runWith_cycles_bounds (ls : List RequestLevels) (s : State) :
    (runWith ls s).state.cycles ≤ maxStepCycles s * ls.length ∧
    ((runWith ls s).error = none → 2 * ls.length ≤ (runWith ls s).state.cycles) := by
  have hmost := runStepsWith_cycles_le ls { s with cycles := 0 }
  rw [Nat.zero_add] at hmost
  refine ⟨hmost, fun h => ?_⟩
  have hleast := le_runStepsWith_cycles h
  rwa [Nat.zero_add] at hleast

/-- Settles O12: the bounds of `runWith`, and those of `run` as the case where the standing levels are presented. -/
theorem runTotalsAreBounded : Obligations.RunTotalsAreBounded := by
  intro n s
  obtain ⟨l, hl⟩ := exists_standing s
  have h14 := Nat.mul_le_mul_right n (maxStepCycles_le s)
  obtain ⟨hmost, hleast⟩ := runWith_cycles_bounds (List.replicate n l) s
  rw [runWith_replicate hl, List.length_replicate] at hmost hleast
  refine ⟨hmost.trans h14, fun hnone => ?_, hleast, ?_⟩
  · rwa [maxStepCycles, if_pos hnone] at hmost
  · rintro ls rfl
    obtain ⟨hmost, hleast⟩ := runWith_cycles_bounds ls s
    exact ⟨hmost.trans h14, hleast⟩

end Sys2Proof.Machine
end

section
/-!
Loads and stores (41_load_store.md R120 to R125). An instruction that takes a data byte as its operand applies its
operation to that byte, beside its cost and its reads; a store writes its byte without reading it, at a fixed cost.
-/

namespace Sys2Proof.Machine

/-! ### Instructions that take a data byte as their operand (R81) -/

/-- An instruction whose branch is not taken, as all but the branches, costs what R104 and R105 say. -/
theorem exec_of_not_branchTaken {i : Instr} {s : State} (h : branchTaken i s = false) :
    exec i s = .next ((effectOf i s).charge (costOf i s)) := by
  simp [exec_eq, branchExtraOf, h]

/-- The cost and the port calls of an operand read, which leaves everything else. -/
theorem withOperandRead_charge (i : Instr) (s : State) (k : Nat) :
    (withOperandRead i s).charge k = s.spent k (operandReads i s) := by
  rw [withOperandRead_eq]; rfl

/-- An operation `f` on the operand byte, which neither reads nor writes the cycle total, is all that the instruction does
beside its cost and its reads. -/
theorem exec_of_operandRead {i : Instr} {s : State} {f : Byte → State → State} (hbranch : branchTaken i s = false)
    (heffect : effectOf i s = f (operandOf i s) (withOperandRead i s))
    (hcharge : ∀ (v : Byte) (t : State) (k : Nat), (f v t).charge k = f v (t.charge k)) :
    exec i s = .next (f (operandOf i s) (s.spent (costOf i s) (operandReads i s))) := by
  rw [exec_of_not_branchTaken hbranch, heffect, hcharge, withOperandRead_charge]

/-! ### Loads (R120 to R122) -/

theorem State.loadA_eq (v : Byte) (s : State) :
    s.loadA v = { s with a := v, n := isNegative v, z := isZero v } := by
  rw [isNegative_eq, isZero_eq]; rfl

theorem State.loadX_eq (v : Byte) (s : State) :
    s.loadX v = { s with x := v, n := isNegative v, z := isZero v } := by
  rw [isNegative_eq, isZero_eq]; rfl

theorem State.loadY_eq (v : Byte) (s : State) :
    s.loadY v = { s with y := v, n := isNegative v, z := isZero v } := by
  rw [isNegative_eq, isZero_eq]; rfl

/-- Settles O32: the rows stand in the table, and each load is its register's load of the operand byte. -/
theorem loadsPutTheOperandInTheRegister : Obligations.LoadsPutTheOperandInTheRegister := by
  refine ⟨rfl, rfl, rfl, fun i s => ⟨fun hop => ?_, fun hop => ?_, fun hop => ?_⟩⟩
  · rw [← State.loadA_eq]
    exact exec_of_operandRead (by rw [branchTaken, hop]) (by rw [effectOf, hop]) fun _ _ _ => rfl
  · rw [← State.loadX_eq]
    exact exec_of_operandRead (by rw [branchTaken, hop]) (by rw [effectOf, hop]) fun _ _ _ => rfl
  · rw [← State.loadY_eq]
    exact exec_of_operandRead (by rw [branchTaken, hop]) (by rw [effectOf, hop]) fun _ _ _ => rfl

/-! ### Stores (R123 to R125) -/

/-- The rows with the page-cross penalty are of operations that read their operand only (R91, R105). -/
theorem rows_pageCrossPenalty : ∀ r ∈ opcodeTable, r.descriptor.pageCrossPenalty = true →
    r.descriptor.operation ∈ [Operation.LDA, .LDX, .LDY, .AND, .ORA, .EOR, .ADC, .SBC, .CMP] := by
  decide +kernel

/-- Any other operation costs its base cycles, whatever page its address lies in. -/
theorem costOf_eq_baseCyclesOf {i : Instr}
    (h : i.operation ∉ [Operation.LDA, .LDX, .LDY, .AND, .ORA, .EOR, .ADC, .SBC, .CMP]) (s : State) :
    costOf i s = baseCyclesOf i := by
  obtain ⟨d, hd, -, hop⟩ := descriptorOf_opcode i
  obtain ⟨r, hrow, rfl⟩ := Option.map_eq_some_iff.mp hd
  have hflag : r.descriptor.pageCrossPenalty = false :=
    Bool.eq_false_iff.mpr fun hp => h (hop ▸ rows_pageCrossPenalty r (findRow_some hrow).1 hp)
  simp [costOf, penaltyFlagOf, hd, hflag]

/-- A store of `b` writes it at the effective address and no other byte. -/
theorem storeEffect_storesOnly (i : Instr) (b : Byte) (s : State) : storesOnly (eaOf i s) b s (storeEffect i b s) := by
  rw [storeEffect_eq]
  exact fun other => Memory.read_write s.mem (eaOf i s) other b

/-- Beside memory, a store adds its cost and its port calls only. -/
theorem storeEffect_charge (i : Instr) (b : Byte) (s : State) (k : Nat) : (storeEffect i b s).charge k =
    { s.spent k (pointerReadsOf i s ++ [.write (eaOf i s) b]) with mem := (storeEffect i b s).mem } := by
  simp [storeEffect_eq, State.charge, State.spent]

/-- A store is its effect at its base cycles. -/
theorem exec_of_store {i : Instr} {s : State} {b : Byte}
    (h : (i.operation = .STA ∧ b = s.a) ∨ (i.operation = .STX ∧ b = s.x) ∨ (i.operation = .STY ∧ b = s.y)) :
    exec i s = .next ((storeEffect i b s).charge (baseCyclesOf i)) := by
  obtain ⟨hop, rfl⟩ | ⟨hop, rfl⟩ | ⟨hop, rfl⟩ := h <;>
    rw [exec_of_not_branchTaken (by rw [branchTaken, hop]), costOf_eq_baseCyclesOf (by rw [hop]; decide), effectOf, hop]

/-- Settles O33: the rows stand in the table, and each store is `storeEffect` of its register's byte. -/
theorem storesWriteTheRegisterAtTheAddress : Obligations.StoresWriteTheRegisterAtTheAddress :=
  ⟨rfl, rfl, rfl, fun i s b h =>
    ⟨_, exec_of_store h, storeEffect_storesOnly i b s, storeEffect_charge i b s (baseCyclesOf i)⟩⟩

end Sys2Proof.Machine
end

section
/-!
Transfers, pushes and pulls (42_transfer_stack.md R130 to R139). A transfer is a load of another register's byte; a push
and a pull are the stack's operations with what they add to the cycle total and the port record.
-/

namespace Sys2Proof.Machine

/-! ### Transfers (R130 to R135) -/

/-- A cost alone makes no port call. -/
theorem State.spent_nil (s : State) (k : Nat) : s.spent k [] = s.charge k := by
  simp [State.spent, State.charge]

/-! The six transfers as the write of one register, after their cost. -/

theorem exec_tax (s : State) : exec .tax s = .next ((s.charge 2).loadX s.a) := rfl
theorem exec_tay (s : State) : exec .tay s = .next ((s.charge 2).loadY s.a) := rfl
theorem exec_txa (s : State) : exec .txa s = .next ((s.charge 2).loadA s.x) := rfl
theorem exec_tya (s : State) : exec .tya s = .next ((s.charge 2).loadA s.y) := rfl
theorem exec_tsx (s : State) : exec .tsx s = .next ((s.charge 2).loadX s.sp) := rfl
theorem exec_txs (s : State) : exec .txs s = .next { s.charge 2 with sp := s.x } := rfl

/-- Settles O34: the rows stand in the table, and each transfer but TXS is its register's load. -/
theorem transfersMoveOneRegister : Obligations.TransfersMoveOneRegister := by
  refine ⟨rfl, rfl, rfl, rfl, rfl, rfl, fun s => ?_⟩
  rw [State.spent_nil]
  refine ⟨?_, ?_, ?_, ?_, ?_, exec_txs s⟩
  · rw [exec_tax, State.loadX_eq]
  · rw [exec_tay, State.loadY_eq]
  · rw [exec_txa, State.loadA_eq]
  · rw [exec_tya, State.loadA_eq]
  · rw [exec_tsx, State.loadX_eq]

/-! ### Pushes (R136, R137) -/

/-- The status byte that PHP pushes: bits 5 and 4 are set (R137). -/
theorem pByte_true (s : State) : s.pByte true = BitVec.ofNat 8 (s.n.toNat * 128 + s.v.toNat * 64 + 32 + 16 +
    s.d.toNat * 8 + s.i.toNat * 4 + s.z.toNat * 2 + s.c.toNat) := rfl

/-- PHA and PHP are a push of their byte at 3 cycles. -/
theorem exec_of_push {i : Instr} {s : State} {b : Byte}
    (h : (i = .pha ∧ b = s.a) ∨ (i = .php ∧ b = s.pByte true)) : exec i s = .next ((s.push b).charge 3) := by
  obtain ⟨rfl, rfl⟩ | ⟨rfl, rfl⟩ := h
  · exact exec_pha s
  · exact exec_php s

/-- Beside memory, a push adds its cost and its write, and moves SP down. -/
theorem push_charge (s : State) (b : Byte) (k : Nat) : (s.push b).charge k =
    { s.spent k [.write (stackAddress s.sp) b] with sp := s.sp - 1#8, mem := (s.push b).mem } := rfl

/-- Settles O35: the rows stand in the table, and both instructions are one push. -/
theorem pushesStoreBelowTheStack : Obligations.PushesStoreBelowTheStack := by
  refine ⟨rfl, rfl, fun i s b h => ?_⟩
  rw [← pByte_true] at h
  exact ⟨_, exec_of_push h, push_storesOnly s b, push_charge s b 3⟩

/-! ### Pulls (R138, R139) -/

/-- A pull adds its cost and its read, and moves SP up. -/
theorem pull_charge (s : State) (k : Nat) : s.pull.charge k =
    { s.spent k [.read (stackAddress (s.sp + 1#8)) s.pulled] with sp := s.sp + 1#8 } := rfl

/-- The interrupt check after PLP is made with bit 2 of the byte pulled (R139, R239). -/
theorem interruptDue_setP {s : State} {r : InterruptInputs} (h : s.inputs = some r) (v : Byte) :
    interruptDue (s.setP v) = (r.nmiDue || (r.irq && !v.getLsbD 2)) := by
  rw [interruptDue_some (s.setP v) r h, State.setP_i]

/-- Settles O36: the rows stand in the table, PLA is a load and PLP a `SetP` of the byte pulled. -/
theorem pullsLoadFromTheStack : Obligations.PullsLoadFromTheStack := by
  refine ⟨rfl, rfl, ?_⟩
  rintro s _ _ rfl rfl
  have hpla : exec .pla s = .next ((s.pull.charge 4).loadA s.pulled) := exec_pla s
  have hplp : exec .plp s = .next ((s.pull.charge 4).setP s.pulled) := exec_plp s
  refine ⟨?_, ?_, fun r hr => ⟨_, hplp, interruptDue_setP hr s.pulled⟩⟩
  · rw [hpla, State.loadA_eq, pull_charge]
    rfl
  · rw [hplp, pull_charge]
    rfl

end Sys2Proof.Machine
end

section
/-!
Add and subtract in binary and decimal (43_logic_arith.md R150, R151, R157, R160, R161): the operations of the ALU as
arithmetic of numbers and of digits.
-/

namespace Sys2Proof.Machine

/-! ### The sign of a byte -/

/-- Bit 7 as the spec's pseudocode masks it. -/
theorem getLsbD_seven_eq_mask : ∀ b : Byte, b.getLsbD 7 = ((b &&& 0x80#8) != 0#8) := by decide +kernel

/-- The signed value of a complement. -/
theorem toInt_not_byte (b : Byte) : (~~~b).toInt = -1 - b.toInt := by
  have h := b.isLt
  rw [toInt_byte, toInt_byte, BitVec.toNat_not]
  split <;> split <;> omega

/-! ### Overflow (R151) -/

theorem overflow_eq_mask (a m r : Byte) : overflow a m r = (((a ^^^ r) &&& (m ^^^ r) &&& 0x80#8) != 0#8) :=
  getLsbD_seven_eq_mask _

/-- Overflow is a result whose sign differs from the equal signs of the operands. -/
theorem overflow_iff (a m r : Byte) :
    overflow a m r = true ↔ isNegative a = isNegative m ∧ isNegative r ≠ isNegative a := by
  simp only [overflow, isNegative_eq, BitVec.getLsbD_and, BitVec.getLsbD_xor]
  cases a.getLsbD 7 <;> cases m.getLsbD 7 <;> cases r.getLsbD 7 <;> decide

/-- Overflow against a complement, as the subtraction has it: the operands' signs differ, and the result's from the
first's. -/
theorem overflow_not (a m r : Byte) :
    overflow a (~~~m) r = (((a ^^^ r) &&& (a ^^^ m) &&& 0x80#8) != 0#8) := by
  rw [← getLsbD_seven_eq_mask, overflow]
  simp only [BitVec.getLsbD_and, BitVec.getLsbD_xor, BitVec.getLsbD_not]
  cases a.getLsbD 7 <;> cases m.getLsbD 7 <;> cases r.getLsbD 7 <;> decide

/-! ### Binary addition (R150) -/

theorem addBinary_value_toNat (a m : Byte) (c : Bool) :
    (addBinary a m c).value.toNat = (a.toNat + m.toNat + c.toNat) % 256 := BitVec.toNat_ofNat _ 8

theorem addBinary_c_iff (a m : Byte) (c : Bool) :
    (addBinary a m c).c = true ↔ 256 ≤ a.toNat + m.toNat + c.toNat := decide_eq_true_iff

theorem addBinary_n (a m : Byte) (c : Bool) : (addBinary a m c).n = isNegative (addBinary a m c).value :=
  (isNegative_eq _).symm

theorem addBinary_z (a m : Byte) (c : Bool) : (addBinary a m c).z = isZero (addBinary a m c).value :=
  (isZero_eq _).symm

theorem addBinary_v (a m : Byte) (c : Bool) : (addBinary a m c).v = overflow a m (addBinary a m c).value := rfl

/-- The overflow is a signed sum outside a byte's range. -/
theorem addBinary_v_iff (a m : Byte) (c : Bool) : (addBinary a m c).v = true ↔
    a.toInt + m.toInt + c.toNat < -128 ∨ 127 < a.toInt + m.toInt + c.toNat := by
  have ha := a.isLt
  have hm := m.isLt
  have hc := c.toNat_le
  have hr := addBinary_value_toNat a m c
  rw [addBinary_v, overflow_iff, toInt_byte, toInt_byte]
  simp only [isNegative, decide_eq_decide, ne_eq]
  split <;> split <;> omega

/-- Settles O40: the fields of `addBinary`, one lemma for each, and `Overflow` by its mask and by its signs. -/
theorem binaryAddIsExact : Obligations.BinaryAddIsExact := fun a m c =>
  ⟨addBinary_value_toNat a m c, addBinary_c_iff a m c, overflow_eq_mask _ _ _, addBinary_v_iff a m c,
    addBinary_n a m c, addBinary_z a m c, fun r => ⟨overflow_eq_mask a m r, overflow_iff a m r⟩⟩

/-! ### Binary subtraction (R157) -/

theorem subBinary_value_toNat (a m : Byte) (c : Bool) :
    ((subBinary a m c).value.toNat : Int) = ((a.toNat : Int) - m.toNat - (1 - c.toNat)) % 256 := by
  have hm := m.isLt
  rw [subBinary, addBinary_value_toNat, BitVec.toNat_not]
  omega

theorem subBinary_c_iff (a m : Byte) (c : Bool) :
    (subBinary a m c).c = true ↔ 0 ≤ (a.toNat : Int) - m.toNat - (1 - c.toNat) := by
  have hm := m.isLt
  rw [subBinary, addBinary_c_iff, BitVec.toNat_not]
  omega

theorem subBinary_n (a m : Byte) (c : Bool) : (subBinary a m c).n = isNegative (subBinary a m c).value :=
  addBinary_n a (~~~m) c

theorem subBinary_z (a m : Byte) (c : Bool) : (subBinary a m c).z = isZero (subBinary a m c).value :=
  addBinary_z a (~~~m) c

theorem subBinary_v (a m : Byte) (c : Bool) : (subBinary a m c).v =
    (((a ^^^ (subBinary a m c).value) &&& (a ^^^ m) &&& 0x80#8) != 0#8) := overflow_not a m _

theorem subBinary_v_iff (a m : Byte) (c : Bool) : (subBinary a m c).v = true ↔
    a.toInt - m.toInt - (1 - c.toNat) < -128 ∨ 127 < a.toInt - m.toInt - (1 - c.toNat) := by
  rw [subBinary, addBinary_v_iff, toInt_not_byte]
  omega

/-! ### Digits (R160, R161) -/

theorem lowDigit_eq_mask : ∀ b : Byte, (b &&& 0x0F#8).toNat = lowDigit b := by decide +kernel
theorem highDigit_eq_mask : ∀ b : Byte, (b &&& 0xF0#8).toNat = highDigit b := by decide +kernel

/-- The byte of two digits of a valid BCD operand, as a number. -/
theorem bcd_toNat {d1 d0 : Nat} (h1 : d1 < 10) (h0 : d0 < 10) :
    (BitVec.ofNat 8 (16 * d1 + d0)).toNat = 16 * d1 + d0 := by
  rw [BitVec.toNat_ofNat]
  omega

theorem lowDigit_bcd {d1 d0 : Nat} (h1 : d1 < 10) (h0 : d0 < 10) : lowDigit (BitVec.ofNat 8 (16 * d1 + d0)) = d0 := by
  rw [lowDigit, bcd_toNat h1 h0]
  omega

theorem highDigit_bcd {d1 d0 : Nat} (h1 : d1 < 10) (h0 : d0 < 10) :
    highDigit (BitVec.ofNat 8 (16 * d1 + d0)) = 16 * d1 := by
  rw [highDigit, bcd_toNat h1 h0]
  omega

/-! ### Decimal addition (R160) -/

/-- The sum after the high digit adjust, whose low byte is the accumulator. -/
def addDecimalSum (a m : Byte) (c : Bool) : Nat :=
  if 0xA0 ≤ addDecimalHalf a m c then addDecimalHalf a m c + 0x60 else addDecimalHalf a m c

theorem addDecimal_value (a m : Byte) (c : Bool) : (addDecimal a m c).value = BitVec.ofNat 8 (addDecimalSum a m c) := rfl

theorem addDecimal_c (a m : Byte) (c : Bool) : (addDecimal a m c).c = decide (0x100 ≤ addDecimalSum a m c) := rfl

theorem addDecimal_n (a m : Byte) (c : Bool) : (addDecimal a m c).n = (addDecimalHalf a m c).testBit 7 :=
  BitVec.getLsbD_ofNat 8 _ 7

theorem addDecimal_v (a m : Byte) (c : Bool) :
    (addDecimal a m c).v = (((a ^^^ BitVec.ofNat 8 (addDecimalHalf a m c)) &&&
      (m ^^^ BitVec.ofNat 8 (addDecimalHalf a m c)) &&& 0x80#8) != 0#8) := overflow_eq_mask _ _ _

theorem addDecimal_z (a m : Byte) (c : Bool) :
    (addDecimal a m c).z = decide ((a.toNat + m.toNat + c.toNat) % 256 = 0) := by
  rw [← addBinary_value_toNat, ← isZero, ← addBinary_z]
  rfl

/-- The masks of the pseudocode give the sum before the high digit adjust. -/
theorem addDecimalHalf_eq_mask {a m : Byte} {c : Bool} {al0 al : Nat}
    (hal0 : al0 = (a &&& 0x0F#8).toNat + (m &&& 0x0F#8).toNat + c.toNat)
    (hal : al = if 0x0A ≤ al0 then ((al0 + 0x06) &&& 0x0F) + 0x10 else al0) :
    (a &&& 0xF0#8).toNat + (m &&& 0xF0#8).toNat + al = addDecimalHalf a m c := by
  have hmask : (al0 + 0x06) &&& 0x0F = (al0 + 0x06) % 16 := Nat.and_two_pow_sub_one_eq_mod _ 4
  rw [hmask, hal0] at hal
  rw [hal, lowDigit_eq_mask, lowDigit_eq_mask, highDigit_eq_mask, highDigit_eq_mask]
  rfl

/-- On valid operands both digit adjusts together carry as decimal addition does. -/
theorem addDecimalSum_bcd {a1 a0 m1 m0 total : Nat} {c : Bool} (ha1 : a1 < 10) (ha0 : a0 < 10) (hm1 : m1 < 10)
    (hm0 : m0 < 10) (htotal : total = 10 * a1 + a0 + (10 * m1 + m0) + c.toNat) :
    addDecimalSum (BitVec.ofNat 8 (16 * a1 + a0)) (BitVec.ofNat 8 (16 * m1 + m0)) c =
      total / 100 * 256 + (16 * (total % 100 / 10) + total % 10) := by
  have hc := c.toNat_le
  simp only [addDecimalSum, addDecimalHalf, lowDigit_bcd ha1 ha0, lowDigit_bcd hm1 hm0, highDigit_bcd ha1 ha0,
    highDigit_bcd hm1 hm0]
  -- a digit sum from ten on goes to the sum less ten and a carry: of 16 from the low digit, of 256 from the high one
  split_ifs <;> omega

/-- Settles O43: the masks are the digits, and on valid operands the sum is the decimal one with its hundreds in bit 8. -/
theorem decimalAddIsBcdAddition : Obligations.DecimalAddIsBcdAddition := by
  refine ⟨fun a m c al0 al t u hal0 hal ht hu => ?_, fun a1 a0 m1 m0 c ha1 ha0 hm1 hm0 total htotal => ?_⟩
  · rw [addDecimalHalf_eq_mask hal0 hal] at ht
    subst ht
    rw [addDecimal_value, addDecimal_c, addDecimalSum, ← hu]
    exact ⟨rfl, addDecimal_n a m c, addDecimal_v a m c, addDecimal_z a m c, rfl⟩
  · rw [addDecimal_value, addDecimal_c, addDecimalSum_bcd ha1 ha0 hm1 hm0 htotal]
    refine ⟨BitVec.eq_of_toNat_eq ?_, decide_eq_decide.mpr ?_⟩
    · rw [BitVec.toNat_ofNat, BitVec.toNat_ofNat]
      omega
    · omega

/-! ### Decimal subtraction (R161) -/

theorem subDecimal_eq (a m : Byte) (c : Bool) :
    subDecimal a m c = { addBinary a (~~~m) c with value := BitVec.ofInt 8 (subDecimalValue a m c) } := rfl

theorem subDecimal_c (a m : Byte) (c : Bool) : (subDecimal a m c).c = (subBinary a m c).c := rfl

/-- The masks of the pseudocode give the accumulator's value. -/
theorem subDecimalValue_eq_mask {a m : Byte} {c : Bool} {al0 al t : Int}
    (hal0 : al0 = ((a &&& 0x0F#8).toNat : Int) - (m &&& 0x0F#8).toNat + c.toNat - 1)
    (hal : al = if al0 < 0 then (al0 - 0x06) % 16 - 0x10 else al0)
    (ht : t = ((a &&& 0xF0#8).toNat : Int) - (m &&& 0xF0#8).toNat + al) :
    (if t < 0 then t - 0x60 else t) = subDecimalValue a m c := by
  subst ht hal hal0
  rw [lowDigit_eq_mask, lowDigit_eq_mask, highDigit_eq_mask, highDigit_eq_mask]
  rfl

/-- On valid operands both digit adjusts together borrow as decimal subtraction does. -/
theorem subDecimalValue_bcd {a1 a0 m1 m0 : Nat} {c : Bool} {diff : Int} (ha1 : a1 < 10) (ha0 : a0 < 10)
    (hm1 : m1 < 10) (hm0 : m0 < 10) (hdiff : diff = 10 * (a1 : Int) + a0 - (10 * (m1 : Int) + m0) - (1 - c.toNat)) :
    subDecimalValue (BitVec.ofNat 8 (16 * a1 + a0)) (BitVec.ofNat 8 (16 * m1 + m0)) c =
      diff / 100 * 256 + (16 * (diff % 100 / 10) + diff % 10) := by
  have hc := c.toNat_le
  simp only [subDecimalValue, lowDigit_bcd ha1 ha0, lowDigit_bcd hm1 hm0, highDigit_bcd ha1 ha0, highDigit_bcd hm1 hm0]
  -- a digit difference below zero goes to the difference plus ten and a borrow: of 16, or of 256
  split_ifs <;> omega

/-- Settles O44: the masks are the digits, and on valid operands the value is the decimal difference modulo 256. -/
theorem decimalSubtractIsBcdSubtraction : Obligations.DecimalSubtractIsBcdSubtraction := by
  refine ⟨fun a m c al0 al t u hal0 hal ht hu => ?_, fun a1 a0 m1 m0 c ha1 ha0 hm1 hm0 diff hdiff => ⟨?_, ?_⟩⟩
  · rw [hu, subDecimalValue_eq_mask hal0 hal ht, subDecimal_eq]
  · rw [subDecimal_eq, subDecimalValue_bcd ha1 ha0 hm1 hm0 hdiff]
    apply BitVec.eq_of_toNat_eq
    rw [BitVec.toNat_ofInt, BitVec.toNat_ofInt]
    omega
  · have hc := c.toNat_le
    have hcarry := subBinary_c_iff (BitVec.ofNat 8 (16 * a1 + a0)) (BitVec.ofNat 8 (16 * m1 + m0)) c
    rw [bcd_toNat ha1 ha0, bcd_toNat hm1 hm0] at hcarry
    rw [subDecimal_c, Bool.eq_iff_iff, hcarry, decide_eq_true_iff]
    omega

end Sys2Proof.Machine
end

section
/-!
The instructions of 43_logic_arith.md (R152 to R163). Each is its operation on the operand byte beside its cost and its
reads: AND, ORA, EOR load the accumulator, ADC and SBC write what the ALU gives, and the compares are one `Compare`.
-/

namespace Sys2Proof.Machine

/-! ### Logic (R152 to R155) -/

/-- Settles O38: the rows stand in the table, and each of the three is a load of A with the combined byte. -/
theorem logicCombinesAccumulatorAndOperand : Obligations.LogicCombinesAccumulatorAndOperand := by
  refine ⟨rfl, rfl, rfl, fun i s r h => ?_⟩
  rw [← State.loadA_eq]
  obtain ⟨hop, rfl⟩ | ⟨hop, rfl⟩ | ⟨hop, rfl⟩ := h
  · exact exec_of_operandRead (f := State.andA) (by rw [branchTaken, hop]) (by rw [effectOf, hop]) fun _ _ _ => rfl
  · exact exec_of_operandRead (f := State.oraA) (by rw [branchTaken, hop]) (by rw [effectOf, hop]) fun _ _ _ => rfl
  · exact exec_of_operandRead (f := State.eorA) (by rw [branchTaken, hop]) (by rw [effectOf, hop]) fun _ _ _ => rfl

/-- Settles O39: the rows stand in the table, and BIT is `bitTest` of the memory byte. -/
theorem bitTestsTheMemoryByte : Obligations.BitTestsTheMemoryByte := by
  refine ⟨rfl, fun i s hop => ?_⟩
  rw [isZero_eq]
  exact exec_of_operandRead (f := State.bitTest) (by rw [branchTaken, hop]) (by rw [effectOf, hop]) fun _ _ _ => rfl

/-! ### ADC and SBC (R156, R157) -/

/-- ADC writes what the ALU gives for A, the operand and C in the mode of D. -/
theorem exec_of_adc {i : Instr} (hop : i.operation = .ADC) (s : State) :
    exec i s = .next ((s.spent (costOf i s) (operandReads i s)).setAlu
      (if s.d then addDecimal s.a (operandOf i s) s.c else addBinary s.a (operandOf i s) s.c)) :=
  exec_of_operandRead (f := State.adc) (by rw [branchTaken, hop]) (by rw [effectOf, hop]) fun _ _ _ => rfl

/-- SBC writes what the ALU gives for A, the operand and C in the mode of D. -/
theorem exec_of_sbc {i : Instr} (hop : i.operation = .SBC) (s : State) :
    exec i s = .next ((s.spent (costOf i s) (operandReads i s)).setAlu
      (if s.d then subDecimal s.a (operandOf i s) s.c else subBinary s.a (operandOf i s) s.c)) :=
  exec_of_operandRead (f := State.sbc) (by rw [branchTaken, hop]) (by rw [effectOf, hop]) fun _ _ _ => rfl

/-- Settles O41: the rows stand in the table, and ADC writes what the ALU gives. -/
theorem adcAddsInTheModeOfD : Obligations.AdcAddsInTheModeOfD := by
  refine ⟨rfl, ?_⟩
  rintro i s _ hop rfl
  exact exec_of_adc hop s

/-- Settles O42: the rows stand in the table, and SBC writes what the ALU gives, in binary the fields of `subBinary`. -/
theorem sbcSubtractsInTheModeOfD : Obligations.SbcSubtractsInTheModeOfD := by
  refine ⟨rfl, fun i s hop hd => ?_, fun i s hop hd => ?_⟩
  · have hexec := exec_of_sbc hop s
    rw [if_neg (by simp [hd])] at hexec
    refine ⟨_, hexec, subBinary_value_toNat _ _ _, subBinary_c_iff _ _ _, subBinary_v _ _ _, subBinary_v_iff _ _ _, ?_⟩
    rw [State.setAlu_a, ← subBinary_n, ← subBinary_z]
    rfl
  · rw [exec_of_sbc hop s, if_pos hd]
    rfl

/-! ### Compares (R158, R159, R162, R163) -/

/-- `Compare` as arithmetic of unsigned bytes. -/
theorem State.compare_eq (r m : Byte) (s : State) : s.compare r m = { s with
    n := decide (128 ≤ (r.toNat + 256 - m.toNat) % 256)
    z := decide (r.toNat = m.toNat)
    c := decide (m.toNat ≤ r.toNat) } := by
  have hm := m.isLt
  have hn : (r - m).getLsbD 7 = decide (128 ≤ (r.toNat + 256 - m.toNat) % 256) := by
    rw [← isNegative_eq, isNegative, BitVec.toNat_sub, decide_eq_decide]
    omega
  have hz : (r == m) = decide (r.toNat = m.toNat) := by
    rw [beq_eq_decide, decide_eq_decide, BitVec.toNat_inj]
  rw [State.compare, hn, hz]

/-- Settles O45: the rows stand in the table, and each compare is `Compare` of its register and the operand byte. -/
theorem comparesSetOnlyCarryZeroNegative : Obligations.ComparesSetOnlyCarryZeroNegative := by
  refine ⟨rfl, rfl, rfl, fun i s r h => ?_⟩
  rw [← State.compare_eq]
  obtain ⟨hop, rfl⟩ | ⟨hop, rfl⟩ | ⟨hop, rfl⟩ := h
  · exact exec_of_operandRead (f := State.cmpA) (by rw [branchTaken, hop]) (by rw [effectOf, hop]) fun _ _ _ => rfl
  · exact exec_of_operandRead (f := State.cmpX) (by rw [branchTaken, hop]) (by rw [effectOf, hop]) fun _ _ _ => rfl
  · exact exec_of_operandRead (f := State.cmpY) (by rw [branchTaken, hop]) (by rw [effectOf, hop]) fun _ _ _ => rfl

end Sys2Proof.Machine
end

section
/-!
The instructions of 44_inc_dec_shift.md (R170 to R179). INC, DEC and the memory forms of the shifts are one
read-modify-write of the byte at the effective address (R180); the index registers step by a load of their neighbour; the
four shift functions are arithmetic of numbers.
-/

namespace Sys2Proof.Machine

/-! ### Read-modify-write (R180) -/

/-- The matrix of R92 has the mode of every instruction in its operation's row. -/
theorem mode_mem_modes (i : Instr) : i.mode ∈ i.operation.modes := List.contains_iff_mem.mp (wellFormed_eq_true i)

/-- Outside the modes without an effective address (R67 to R69, R73), an instruction's operand is in memory. -/
theorem addrModeOf_ne_none {i : Instr} (h : i.mode ∉ [Mode.IMP, .ACC, .IMM, .REL]) : addrModeOf i ≠ none := by
  cases i <;> simp_all [addrModeOf, Instr.mode]

/-- The operations that read a byte and then write it back (R180). -/
def readModifyWrites : List Operation := [.INC, .DEC, .ASL, .LSR, .ROL, .ROR]

/-- A read-modify-write operation has its operand in memory, in every mode but the accumulator's (R92). -/
theorem addrModeOf_of_modify {i : Instr} (hop : i.operation ∈ readModifyWrites) (hacc : i.mode ≠ .ACC) :
    addrModeOf i ≠ none := by
  have hrow : ∀ op ∈ readModifyWrites, ∀ m ∈ op.modes, m ≠ .ACC → m ∉ [Mode.IMP, .ACC, .IMM, .REL] := by
    decide
  exact addrModeOf_ne_none (hrow _ hop _ (mode_mem_modes i) hacc)

/-- INC and DEC have no accumulator form (R92). -/
theorem mode_ne_acc_of_step {i : Instr} (hop : i.operation ∈ [Operation.INC, .DEC]) : i.mode ≠ .ACC := by
  have hrow : ∀ op ∈ [Operation.INC, .DEC], ∀ m ∈ op.modes, m ≠ .ACC := by decide
  exact hrow _ hop _ (mode_mem_modes i)

/-- The accesses of a read-modify-write are the operand's reads and then one write. -/
theorem modifyCalls_eq {i : Instr} (h : addrModeOf i ≠ none) (b : Byte) (s : State) :
    modifyCalls i b s = operandReads i s ++ [.write (eaOf i s) b] := by
  obtain ⟨m, hm⟩ := Option.ne_none_iff_exists'.mp h
  simp [modifyCalls, operandReads, pointerReadsOf, eaOf, hm]

/-- A read-modify-write stores its byte at the effective address and changes no other byte. -/
theorem modifyEffect_storesOnly (i : Instr) (b : Byte) (s : State) :
    storesOnly (eaOf i s) b s (modifyEffect i b s) := by
  rw [modifyEffect_eq]
  exact fun other => Memory.read_write s.mem (eaOf i s) other b

/-- Beside memory, a read-modify-write adds its cost and its port calls only. -/
theorem modifyEffect_charge {i : Instr} (h : addrModeOf i ≠ none) (b : Byte) (s : State) (k : Nat) :
    (modifyEffect i b s).charge k =
      { s.spent k (operandReads i s ++ [.write (eaOf i s) b]) with mem := (modifyEffect i b s).mem } := by
  rw [modifyEffect_eq, modifyCalls_eq h]
  rfl

/-- A read-modify-write operation costs its base cycles, whatever page its address lies in (R105). -/
theorem exec_of_modify {i : Instr} (hop : i.operation ∈ readModifyWrites) (s : State) :
    exec i s = .next ((effectOf i s).charge (baseCyclesOf i)) := by
  have hreads : ∀ op ∈ readModifyWrites, op ∉ [Operation.LDA, .LDX, .LDY, .AND, .ORA, .EOR, .ADC, .SBC, .CMP] := by
    decide
  have hbranch : branchTaken i s = false := by
    unfold branchTaken
    split <;> simp_all [readModifyWrites]
  rw [exec_of_not_branchTaken hbranch, costOf_eq_baseCyclesOf (hreads _ hop)]

/-! ### INC and DEC (R170, R171) -/

theorem eq_add_one_of_toNat {r b : Byte} (h : r.toNat = (b.toNat + 1) % 256) : r = b + 1#8 :=
  BitVec.eq_of_toNat_eq (h.trans (BitVec.toNat_add b 1#8).symm)

theorem eq_sub_one_of_toNat {r b : Byte} (h : r.toNat = (b.toNat + 255) % 256) : r = b - 1#8 :=
  BitVec.eq_of_toNat_eq (h.trans (byte_sub_one_toNat b).symm)

theorem State.setNZ_eq (v : Byte) (s : State) : s.setNZ v = { s with n := isNegative v, z := isZero v } := by
  rw [isNegative_eq, isZero_eq]
  rfl

/-- Beside memory, INC and DEC add their cost and their port calls, and show the byte stored in N and Z. -/
theorem stepEffect_charge {i : Instr} (h : addrModeOf i ≠ none) (b : Byte) (s : State) (k : Nat) :
    (stepEffect i b s).charge k = { s.spent k (operandReads i s ++ [.write (eaOf i s) b]) with
      mem := (stepEffect i b s).mem, n := isNegative b, z := isZero b } :=
  calc (stepEffect i b s).charge k
      = ((modifyEffect i b s).charge k).setNZ b := rfl
    _ = _ := by
      rw [modifyEffect_charge h, State.setNZ_eq]
      rfl

/-- Settles O46: the rows stand in the table, and both are `stepEffect` of the operand's neighbour. -/
theorem incDecStepTheMemoryByte : Obligations.IncDecStepTheMemoryByte := by
  refine ⟨rfl, rfl, fun i s r h => ?_⟩
  have hop : i.operation ∈ [Operation.INC, .DEC] := by
    obtain ⟨hop, -⟩ | ⟨hop, -⟩ := h <;> simp [hop]
  have heffect : effectOf i s = stepEffect i r s := by
    obtain ⟨hop, hr⟩ | ⟨hop, hr⟩ := h
    · rw [effectOf, hop, eq_add_one_of_toNat hr]
    · rw [effectOf, hop, eq_sub_one_of_toNat hr]
  have hmodify : i.operation ∈ readModifyWrites := List.mem_append_left _ hop
  refine ⟨_, exec_of_modify hmodify s, ?_⟩
  rw [heffect]
  exact ⟨modifyEffect_storesOnly i r s,
    stepEffect_charge (addrModeOf_of_modify hmodify (mode_ne_acc_of_step hop)) r s (baseCyclesOf i)⟩

/-! ### INX, INY, DEX, DEY (R172 to R175) -/

theorem exec_inx (s : State) : exec .inx s = .next ((s.charge 2).loadX (s.x + 1#8)) := rfl
theorem exec_iny (s : State) : exec .iny s = .next ((s.charge 2).loadY (s.y + 1#8)) := rfl
theorem exec_dex (s : State) : exec .dex s = .next ((s.charge 2).loadX (s.x - 1#8)) := rfl
theorem exec_dey (s : State) : exec .dey s = .next ((s.charge 2).loadY (s.y - 1#8)) := rfl

/-- Settles O47: the rows stand in the table, and each is a load of the register's neighbour. -/
theorem indexRegistersStepByOne : Obligations.IndexRegistersStepByOne := by
  refine ⟨rfl, rfl, rfl, rfl, fun s r => ?_⟩
  rw [State.spent_nil]
  refine ⟨fun hr => ?_, fun hr => ?_, fun hr => ?_, fun hr => ?_⟩
  · rw [exec_inx, ← eq_add_one_of_toNat hr, State.loadX_eq]
  · rw [exec_iny, ← eq_add_one_of_toNat hr, State.loadY_eq]
  · rw [exec_dex, ← eq_sub_one_of_toNat hr, State.loadX_eq]
  · rw [exec_dey, ← eq_sub_one_of_toNat hr, State.loadY_eq]

/-! ### The shift functions (R176 to R179) -/

/-- ASL doubles. -/
theorem shiftLeft_eq (m : Byte) (c : Bool) : shiftLeft m c = ⟨BitVec.ofNat 8 (2 * m.toNat), m.getLsbD 7⟩ := by
  have hvalue : m <<< 1 = BitVec.ofNat 8 (2 * m.toNat) := BitVec.eq_of_toNat_eq (by
    rw [BitVec.toNat_shiftLeft, BitVec.toNat_ofNat, Nat.shiftLeft_eq, Nat.mul_comm, pow_one])
  rw [shiftLeft, hvalue]

/-- LSR halves. -/
theorem shiftRight_eq (m : Byte) (c : Bool) : shiftRight m c = ⟨BitVec.ofNat 8 (m.toNat / 2), m.getLsbD 0⟩ := by
  have hvalue : m >>> 1 = BitVec.ofNat 8 (m.toNat / 2) := BitVec.eq_of_toNat_eq (by
    have hm := m.isLt
    rw [BitVec.toNat_ushiftRight, BitVec.toNat_ofNat, Nat.shiftRight_eq_div_pow, pow_one]
    omega)
  rw [shiftRight, hvalue]

/-- ROL doubles and adds the carry: bit 0 is free for it. -/
theorem rotateLeft_eq (m : Byte) (c : Bool) :
    rotateLeft m c = ⟨BitVec.ofNat 8 (2 * m.toNat + c.toNat), m.getLsbD 7⟩ := by
  have hvalue : ∀ (c : Bool) (m : Byte),
      m <<< 1 ||| (if c then 0x01#8 else 0#8) = BitVec.ofNat 8 (2 * m.toNat + c.toNat) := by decide +kernel
  rw [rotateLeft, hvalue]

/-- ROR halves and adds the carry at bit 7, which is free for it. -/
theorem rotateRight_eq (m : Byte) (c : Bool) :
    rotateRight m c = ⟨BitVec.ofNat 8 (m.toNat / 2 + 128 * c.toNat), m.getLsbD 0⟩ := by
  have hvalue : ∀ (c : Bool) (m : Byte),
      m >>> 1 ||| (if c then 0x80#8 else 0#8) = BitVec.ofNat 8 (m.toNat / 2 + 128 * c.toNat) := by decide +kernel
  rw [rotateRight, hvalue]

/-! ### ASL, LSR, ROL, ROR (R176 to R179) -/

theorem State.setShift_eq (r : ShiftResult) (s : State) :
    s.setShift r = { s with n := isNegative r.value, z := isZero r.value, c := r.carry } := by
  rw [State.setShift, State.setNZ_eq]

/-- The rows of the accumulator mode cost 2 cycles (R91). -/
theorem rows_accumulatorCycles : ∀ r ∈ opcodeTable, r.descriptor.mode = .ACC → r.descriptor.baseCycles = 2 := by
  decide +kernel

theorem baseCyclesOf_acc {i : Instr} (h : i.mode = .ACC) : baseCyclesOf i = 2 := by
  obtain ⟨d, hd, hmode, -⟩ := descriptorOf_opcode i
  obtain ⟨r, hrow, rfl⟩ := Option.map_eq_some_iff.mp hd
  simp [baseCyclesOf, hd, rows_accumulatorCycles r (findRow_some hrow).1 (hmode.trans h)]

/-- In the accumulator form a shift writes A and its flags, beside its cost. -/
theorem shiftEffect_charge_acc {i : Instr} (h : i.mode = .ACC) (r : ShiftResult) (s : State) (k : Nat) :
    (shiftEffect i r s).charge k = { s.charge k with
      a := r.value, n := isNegative r.value, z := isZero r.value, c := r.carry } := by
  rw [shiftEffect, if_pos h, State.setShift_eq]
  rfl

/-- In the memory forms a shift is a read-modify-write of its result and sets its flags. -/
theorem shiftEffect_charge {i : Instr} (h : addrModeOf i ≠ none) (hacc : i.mode ≠ .ACC) (r : ShiftResult) (s : State)
    (k : Nat) : (shiftEffect i r s).charge k =
      { s.spent k (operandReads i s ++ [.write (eaOf i s) r.value]) with
        mem := (shiftEffect i r s).mem, n := isNegative r.value, z := isZero r.value, c := r.carry } :=
  have hmodify : shiftEffect i r s = (modifyEffect i r.value s).setShift r := if_neg hacc
  calc (shiftEffect i r s).charge k
      = ((modifyEffect i r.value s).charge k).setShift r := by rw [hmodify]; rfl
    _ = _ := by
      rw [modifyEffect_charge h, State.setShift_eq, hmodify]
      rfl

theorem shiftEffect_storesOnly {i : Instr} (hacc : i.mode ≠ .ACC) (r : ShiftResult) (s : State) :
    storesOnly (eaOf i s) r.value s (shiftEffect i r s) := by
  rw [shiftEffect, if_neg hacc]
  exact modifyEffect_storesOnly i r.value s

/-- Settles O48: the rows stand in the table, and each is `shiftEffect` of the byte and the bit stated. -/
theorem shiftsMoveOneBitThroughCarry : Obligations.ShiftsMoveOneBitThroughCarry := by
  refine ⟨rfl, rfl, rfl, rfl, fun i s r out h => ?_⟩
  have hop : i.operation ∈ readModifyWrites := by
    obtain ⟨hop, -⟩ | ⟨hop, -⟩ | ⟨hop, -⟩ | ⟨hop, -⟩ := h <;> simp [hop, readModifyWrites]
  have heffect : effectOf i s = shiftEffect i ⟨r, out⟩ s := by
    obtain ⟨hop, rfl, rfl⟩ | ⟨hop, rfl, rfl⟩ | ⟨hop, rfl, rfl⟩ | ⟨hop, rfl, rfl⟩ := h
    · rw [effectOf, hop, ← shiftLeft_eq]
    · rw [effectOf, hop, ← shiftRight_eq]
    · rw [effectOf, hop, ← rotateLeft_eq]
    · rw [effectOf, hop, ← rotateRight_eq]
  rw [exec_of_modify hop, heffect]
  refine ⟨fun hacc => ?_, fun hacc => ⟨_, rfl, shiftEffect_storesOnly hacc ⟨r, out⟩ s, ?_⟩⟩
  · rw [shiftEffect_charge_acc hacc, baseCyclesOf_acc hacc, State.spent_nil]
  · exact shiftEffect_charge (addrModeOf_of_modify hop hacc) hacc ⟨r, out⟩ s (baseCyclesOf i)

end Sys2Proof.Machine
end

section
/-!
Jumps, call and return (45_control_flow.md R190 to R192). A jump loads the effective address; a call pushes a word at
the two stack addresses and a return pulls it from there, so that what a call pushed is what a return pulls.
-/

namespace Sys2Proof.Machine

/-! ### JMP (R190) -/

theorem exec_jmpAbs (w : Word) (s : State) : exec (.jmpAbs w) s = jumpTo 3 (.abs w) s := rfl
theorem exec_jmpInd (p : Word) (s : State) : exec (.jmpInd p) s = jumpTo 5 (.ind p) s := rfl

/-- A jump loads the effective address, beside its cost and its pointer's reads. -/
theorem jumpTo_eq_spent (k : Nat) (m : AddrMode) (s : State) :
    jumpTo k m s = .next { s.spent k (m.pointerReads s) with pc := m.ea s } := jumpTo_eq k m s

/-- Settles O49: the rows stand in the table, and the address stated for the second byte is `nextInPage`. -/
theorem jmpLoadsTheProgramCounter : Obligations.JmpLoadsTheProgramCounter := by
  refine ⟨rfl, fun s w p p' => ⟨?_, fun hp' => ?_⟩⟩
  · rw [exec_jmpAbs, jumpTo_eq_spent]
    rfl
  · obtain rfl : p' = nextInPage p := BitVec.eq_of_toNat_eq (hp'.trans (nextInPage_toNat p).symm)
    rw [exec_jmpInd, jumpTo_eq_spent]
    rfl

/-! ### JSR (R191) -/

theorem exec_jsr (w : Word) (s : State) : exec (.jsr w) s = .next ((s.callSubroutine w).charge 6) := rfl

/-- The low byte of a word as the pseudocode's remainder. -/
theorem loByte_eq_mod (w : Word) : loByte w = BitVec.ofNat 8 (w.toNat % 256) := by
  apply BitVec.eq_of_toNat_eq
  rw [loByte_toNat, BitVec.toNat_ofNat, Nat.mod_mod]

/-- The two bytes of a word are pushed at different addresses, also where SP wraps (R13). -/
theorem stackAddress_sub_one_ne (sp : Byte) : stackAddress (sp - 1#8) ≠ stackAddress sp :=
  fun h => sub1_ne sp (stackAddress_inj.mp h)

/-- Reading a byte after the two pushes of a word. -/
theorem State.pushWord_read (w : Word) (s : State) (address : Word) : (s.pushWord w).mem.read address =
    if address = stackAddress s.sp then hiByte w
    else if address = stackAddress (s.sp - 1#8) then loByte w
    else s.mem.read address := by
  rw [State.pushWord_eq, Memory.read_write, Memory.read_write]
  by_cases hhigh : address = stackAddress s.sp
  · rw [hhigh, if_neg (stackAddress_sub_one_ne s.sp).symm, if_pos rfl, if_pos rfl]
  · rw [if_neg hhigh, if_neg hhigh]

/-- Beside memory, a call adds its cost and its two writes, moves SP down by 2 and jumps. -/
theorem callSubroutine_charge (w : Word) (s : State) (k : Nat) : (s.callSubroutine w).charge k =
    { s.spent k [.write (stackAddress s.sp) (hiByte (s.pc - 1#16)),
        .write (stackAddress (s.sp - 1#8)) (loByte (s.pc - 1#16))] with
      sp := s.sp - 2#8, pc := w, mem := (s.pushWord (s.pc - 1#16)).mem } := by
  rw [callSubroutine_eq, State.pushWord_eq]
  rfl

/-- Settles O50: the row stands in the table, and the word pushed is the program counter less 1. -/
theorem jsrPushesTheReturnAddress : Obligations.JsrPushesTheReturnAddress := by
  refine ⟨rfl, fun s w => ⟨_, exec_jsr w s, ?_⟩⟩
  rw [← loByte_eq_mod]
  exact ⟨State.pushWord_read (s.pc - 1#16) s, callSubroutine_charge w s 6⟩

/-! ### RTS (R192) -/

theorem exec_rts (s : State) : exec .rts s = .next (s.returnFromSubroutine.charge 6) := rfl

/-- Joined bytes and one more, as a number (R192). -/
theorem joinBytes_add_one (hi lo : Byte) : joinBytes hi lo + 1#16 = BitVec.ofNat 16 (hi.toNat * 256 + lo.toNat + 1) :=
  (BitVec.ofNat_add _ 1).symm

/-- A return adds its cost and its two reads, moves SP up by 2 and continues behind the word pulled. -/
theorem returnFromSubroutine_charge (s : State) (k : Nat) : s.returnFromSubroutine.charge k =
    { s.spent k [.read (stackAddress (s.sp + 1#8)) (s.mem.read (stackAddress (s.sp + 1#8))),
        .read (stackAddress (s.sp + 2#8)) (s.mem.read (stackAddress (s.sp + 2#8)))] with
      sp := s.sp + 2#8
      pc := joinBytes (s.mem.read (stackAddress (s.sp + 2#8))) (s.mem.read (stackAddress (s.sp + 1#8))) + 1#16 } := by
  rw [returnFromSubroutine_eq, State.pullWord_eq]
  rfl

/-- Settles O51: the row stands in the table, and the two bytes are joined and incremented. -/
theorem rtsReturnsBehindThePulledAddress : Obligations.RtsReturnsBehindThePulledAddress := by
  refine ⟨rfl, ?_⟩
  rintro s _ _ rfl rfl
  rw [exec_rts, returnFromSubroutine_charge, joinBytes_add_one]
  rfl

/-! ### RTS after JSR (R191, R192) -/

/-- The two pulls of a return find the two bytes where the pushes of a word put them. -/
theorem pulledWord_of_pushWord {s u : State} {w : Word} (hsp : u.sp = s.sp - 2#8)
    (hstack : ∀ address, address = stackAddress s.sp ∨ address = stackAddress (s.sp - 1#8) →
      u.mem.read address = (s.pushWord w).mem.read address) : u.pulledWord = w := by
  have hhigh : u.mem.read (stackAddress (u.sp + 2#8)) = hiByte w := by
    rw [hsp, BitVec.sub_add_cancel, hstack _ (.inl rfl), State.pushWord_read, if_pos rfl]
  have hlow : u.mem.read (stackAddress (u.sp + 1#8)) = loByte w := by
    rw [hsp, ← sub1_sub1, BitVec.sub_add_cancel, hstack _ (.inr rfl), State.pushWord_read,
      if_neg (stackAddress_sub_one_ne s.sp), if_pos rfl]
  rw [State.pulledWord_eq, hhigh, hlow, joinBytes_hi_lo]

/-- Settles O52: the word pulled is the one JSR pushed, so that adding 1 undoes subtracting it. -/
theorem rtsUndoesJsr : Obligations.RtsUndoesJsr := by
  intro s t u w hjsr hsp hstack
  obtain rfl : (s.callSubroutine w).charge 6 = t := Host.Outcome.next.inj hjsr
  rw [callSubroutine_charge] at hsp hstack
  have hword : u.pulledWord = s.pc - 1#16 := pulledWord_of_pushWord hsp hstack
  rw [exec_rts, returnFromSubroutine_charge, ← State.pulledWord_eq, hword, hsp]
  exact ⟨_, rfl, BitVec.sub_add_cancel _ _, BitVec.sub_add_cancel _ _⟩

end Sys2Proof.Machine
end

section
/-!
The flag instructions, BRK and RTI (46_flags_system.md R210 to R219, 60_exceptions.md R233, R242). BRK is the interrupt
sequence from the address behind its padding byte; RTI pulls the three bytes that a sequence pushed, so that it undoes one.
-/

namespace Sys2Proof.Machine

/-! ### Flag instructions and NOP (R210 to R217) -/

/-! The eight instructions as the write of one flag, or of none, after their cost. -/

theorem exec_clc (s : State) : exec .clc s = .next { s.charge 2 with c := false } := rfl
theorem exec_sec (s : State) : exec .sec s = .next { s.charge 2 with c := true } := rfl
theorem exec_cli (s : State) : exec .cli s = .next { s.charge 2 with i := false } := rfl
theorem exec_sei (s : State) : exec .sei s = .next { s.charge 2 with i := true } := rfl
theorem exec_cld (s : State) : exec .cld s = .next { s.charge 2 with d := false } := rfl
theorem exec_sed (s : State) : exec .sed s = .next { s.charge 2 with d := true } := rfl
theorem exec_clv (s : State) : exec .clv s = .next { s.charge 2 with v := false } := rfl
theorem exec_nop (s : State) : exec .nop s = .next (s.charge 2) := rfl

/-- The interrupt check after a write of I is made with the value written (R212, R239). -/
theorem interruptDue_writeI {s : State} {r : InterruptInputs} (h : s.inputs = some r) (value : Bool) :
    interruptDue { s with i := value } = (r.nmiDue || (r.irq && !value)) :=
  interruptDue_some { s with i := value } r h

/-- Settles O54: the rows stand in the table, each instruction is one write, and the check sees the I written. -/
theorem flagInstructionsWriteOneFlag : Obligations.FlagInstructionsWriteOneFlag := by
  refine ⟨rfl, rfl, rfl, rfl, rfl, rfl, rfl, rfl, fun s => ?_⟩
  rw [State.spent_nil]
  refine ⟨exec_clc s, exec_sec s, exec_cli s, exec_sei s, exec_cld s, exec_sed s, exec_clv s, exec_nop s,
    fun r hr => ⟨⟨_, exec_cli s, ?_⟩, ⟨_, exec_sei s, ?_⟩⟩⟩
  · rw [interruptDue_writeI (s := s.charge 2) hr, Bool.not_false, Bool.and_true]
  · rw [interruptDue_writeI (s := s.charge 2) hr, Bool.not_true, Bool.and_false, Bool.or_false]

/-! ### BRK (R218, R233) -/

theorem exec_brk (s : State) : exec .brk s = .next (s.breakSequence.charge 7) := rfl

/-- Beside memory, an interrupt sequence adds its cost, its three writes and the two reads of its vector, moves SP down
by 3, sets I and loads the program counter from the vector. -/
theorem interruptSequence_charge (vector : Word) (b : Bool) (s : State) (k : Nat) :
    (s.interruptSequence vector b).charge k =
      { s.spent k [.write (stackAddress s.sp) (hiByte s.pc), .write (stackAddress (s.sp - 1#8)) (loByte s.pc),
          .write (stackAddress (s.sp - 2#8)) (s.pByte b),
          .read vector ((s.interruptSequence vector b).mem.read vector),
          .read (vector + 1#16) ((s.interruptSequence vector b).mem.read (vector + 1#16))] with
        sp := s.sp - 3#8
        i := true
        mem := (s.interruptSequence vector b).mem
        pc := joinBytes ((s.interruptSequence vector b).mem.read (vector + 1#16))
          ((s.interruptSequence vector b).mem.read vector) } :=
  congrArg (State.charge k) (State.interruptSequence_eq vector b s)

/-- An interrupt sequence leaves every byte outside the stack's page as before. -/
theorem interruptSequence_read_of_ne_stack {address : Word} (h : ∀ sp, address ≠ stackAddress sp) (vector : Word)
    (b : Bool) (s : State) : (s.interruptSequence vector b).mem.read address = s.mem.read address := by
  rw [State.interruptSequence_read, if_neg (h _), if_neg (h _), if_neg (h _)]

/-- The three bytes that BRK pushes: the address behind its padding byte, and the status byte with B set. -/
theorem breakSequence_read (s : State) (address : Word) : s.breakSequence.mem.read address =
    if address = stackAddress s.sp then hiByte (s.pc + 1#16)
    else if address = stackAddress (s.sp - 1#8) then loByte (s.pc + 1#16)
    else if address = stackAddress (s.sp - 2#8) then s.pByte true
    else s.mem.read address :=
  State.interruptSequence_read irqBrkVector true { s with pc := s.pc + 1#16 } address

/-- Beside memory, all that BRK does: its pushes do not reach the vector, which reads as before. -/
theorem breakSequence_charge (s : State) (k : Nat) : s.breakSequence.charge k =
    { s.spent k [.write (stackAddress s.sp) (hiByte (s.pc + 1#16)),
        .write (stackAddress (s.sp - 1#8)) (loByte (s.pc + 1#16)), .write (stackAddress (s.sp - 2#8)) (s.pByte true),
        .read irqBrkVector (s.mem.read irqBrkVector), .read (irqBrkVector + 1#16) (s.mem.read (irqBrkVector + 1#16))] with
      sp := s.sp - 3#8
      i := true
      mem := s.breakSequence.mem
      pc := joinBytes (s.mem.read (irqBrkVector + 1#16)) (s.mem.read irqBrkVector) } := by
  rw [State.breakSequence, interruptSequence_charge,
    interruptSequence_read_of_ne_stack fun sp => (irqBrkVector_ne_stack sp).1,
    interruptSequence_read_of_ne_stack fun sp => (irqBrkVector_ne_stack sp).2]
  rfl

/-- Settles O56: the row stands in the table, and BRK is the interrupt sequence from the program counter plus 1. -/
theorem brkTakesTheInterruptSequence : Obligations.BrkTakesTheInterruptSequence := by
  refine ⟨rfl, fun s => ⟨_, exec_brk s, ?_⟩⟩
  rw [← loByte_eq_mod]
  exact ⟨breakSequence_read s, breakSequence_charge s 7⟩

/-! ### RTI (R219) -/

theorem exec_rti (s : State) : exec .rti s = .next (s.returnFromInterrupt.charge 6) := rfl

/-- RTI adds its cost and its three reads, moves SP up by 3, loads the flags and continues at the address pulled. -/
theorem returnFromInterrupt_charge (s : State) (k : Nat) : s.returnFromInterrupt.charge k =
    { (s.setP (s.mem.read (stackAddress (s.sp + 1#8)))).spent k
        [.read (stackAddress (s.sp + 1#8)) (s.mem.read (stackAddress (s.sp + 1#8))),
          .read (stackAddress (s.sp + 2#8)) (s.mem.read (stackAddress (s.sp + 2#8))),
          .read (stackAddress (s.sp + 3#8)) (s.mem.read (stackAddress (s.sp + 3#8)))] with
      sp := s.sp + 3#8
      pc := joinBytes (s.mem.read (stackAddress (s.sp + 3#8))) (s.mem.read (stackAddress (s.sp + 2#8))) } :=
  congrArg (State.charge k) (State.returnFromInterrupt_eq s)

/-- Settles O57: the row stands in the table, and `SetP` loads each flag from its bit of the first byte pulled. -/
theorem rtiRestoresFlagsAndProgramCounter : Obligations.RtiRestoresFlagsAndProgramCounter := by
  refine ⟨rfl, ?_⟩
  rintro s _ _ _ rfl rfl rfl
  rw [exec_rti, returnFromInterrupt_charge]
  rfl

/-! ### RTI after an interrupt sequence (R233, R242) -/

theorem sub3_add1 (b : Byte) : b - 3#8 + 1#8 = b - 2#8 := by
  rw [← sub2_sub1, BitVec.sub_add_cancel]

theorem sub3_add2 (b : Byte) : b - 3#8 + 2#8 = b - 1#8 := by
  rw [← add1_add1, sub3_add1, ← sub1_sub1, BitVec.sub_add_cancel]

/-- The three pulls of RTI find the status byte and the program counter where an interrupt sequence pushed them. -/
theorem pulledBytes_of_interruptSequence {s u : State} {vector : Word} {b : Bool} (hsp : u.sp = s.sp - 3#8)
    (hstack : ∀ address ∈ [stackAddress s.sp, stackAddress (s.sp - 1#8), stackAddress (s.sp - 2#8)],
      u.mem.read address = (s.interruptSequence vector b).mem.read address) :
    u.mem.read (stackAddress (u.sp + 1#8)) = s.pByte b ∧ u.mem.read (stackAddress (u.sp + 2#8)) = loByte s.pc ∧
      u.mem.read (stackAddress (u.sp + 3#8)) = hiByte s.pc := by
  rw [hsp, sub3_add1, sub3_add2, BitVec.sub_add_cancel]
  refine ⟨?_, ?_, ?_⟩
  · rw [hstack _ (by simp), State.interruptSequence_read, if_neg (mt stackAddress_inj.mp (sub2_ne s.sp)),
      if_neg (mt stackAddress_inj.mp (sub2_ne_sub1 s.sp)), if_pos rfl]
  · rw [hstack _ (by simp), State.interruptSequence_read, if_neg (stackAddress_sub_one_ne s.sp), if_pos rfl]
  · rw [hstack _ (by simp), State.interruptSequence_read, if_pos rfl]

/-- Settles O58: the bytes pulled are the ones pushed, the status byte loads back and the program counter rejoins. -/
theorem rtiUndoesTheInterruptSequence : Obligations.RtiUndoesTheInterruptSequence := by
  intro s u vector b hsp hstack
  have hsp3 : u.sp = s.sp - 3#8 := by rw [hsp, State.interruptSequence_eq]
  obtain ⟨hp, hlo, hhi⟩ := pulledBytes_of_interruptSequence hsp3 hstack
  rw [exec_rti, returnFromInterrupt_charge, hp, hlo, hhi, joinBytes_hi_lo, hsp3, BitVec.sub_add_cancel]
  refine ⟨_, rfl, rfl, rfl, fun f => ?_, rfl, rfl, rfl, fun _ => rfl⟩
  rw [← setP_pByte_flag s u b f]
  cases f <;> rfl

end Sys2Proof.Machine
end

section
/-!
Exceptions (60_exceptions.md): what an unknown opcode leaves (R230, R231), the interrupt sequence (R233), the order in
which requests are serviced (R237 to R241), and the machine without request inputs (R236).
-/

namespace Sys2Proof.Machine

/-! ### Unknown opcodes (R230, R231, R241) -/

/-- Steps are steps that present the standing levels (log 5). -/
theorem runStepsWith_replicate {l : RequestLevels} {s : State} (h : Standing l s) (n : Nat) :
    runStepsWith (List.replicate n l) s = runSteps n s := by
  rw [runStepsWith_of_standing fun l' hl' => List.eq_of_mem_replicate hl' ▸ h, List.length_replicate]

/-- Steps that follow steps without an error start where these end (R100, R108). -/
theorem runSteps_add {n : Nat} {s : State} (m : Nat) (h : (runSteps n s).error = none) :
    runSteps (n + m) s = runSteps m (runSteps n s).state := by
  obtain ⟨l, hl⟩ := exists_standing s
  rw [← runStepsWith_replicate hl, ← runStepsWith_replicate (standing_runSteps hl h), ← runStepsWith_replicate hl n,
    List.replicate_add]
  exact runStepsWith_append _ (by rwa [runStepsWith_replicate hl])

/-- Settles O7: the check and one `Fetch8` are all of the failing step, and the run stops there with its error. -/
theorem unknownOpcodeLeavesOnlyTheFetch : Obligations.UnknownOpcodeLeavesOnlyTheFetch := by
  rintro s _ _ rfl rfl hunknown
  have hfault := step_of_unknown hunknown
  refine ⟨serviceInterrupt_absent s, hfault, fun n k s0 hrun => ?_⟩
  rw [runSteps_add (k + 1) (by rw [hrun]), hrun, runSteps_succ_fault k hfault]
  rfl

/-! ### The interrupt sequence (R233) -/

/-- Settles O55: the reads and the frame of `interruptSequence_eq`, with the bytes and addresses as the rule writes them. -/
theorem interruptSequenceSavesThreeBytes : Obligations.InterruptSequenceSavesThreeBytes := by
  intro s t vector b ht
  have hread := State.interruptSequence_read vector b s
  have hframe := State.interruptSequence_eq vector b s
  rw [ht] at hread hframe
  rw [← loByte_eq_mod]
  exact ⟨hread, hframe⟩

/-! ### Servicing requests (R237 to R241) -/

/-- An NMI is due by the latch or by a rising edge (R238). -/
theorem nmiDue_iff (r : InterruptInputs) :
    r.nmiDue = true ↔ r.nmiPending = true ∨ (r.nmi = true ∧ r.nmiLast = false) := by
  simp [InterruptInputs.nmiDue]

theorem nmiDue_eq_false {r : InterruptInputs} (hpending : r.nmiPending = false)
    (hedge : r.nmi = false ∨ r.nmiLast = true) : r.nmiDue = false := by
  rw [InterruptInputs.nmiDue, hpending]
  rcases hedge with h | h <;> simp [h]

/-- Settles O59: one clause for each branch of the interrupt check. -/
theorem interruptRequestsAreServicedInPriority : Obligations.InterruptRequestsAreServicedInPriority := by
  rintro s _ irq nmi nmiLast pending hinputs rfl
  rw [State.spent_nil, State.spent_nil, ← nmiVector, ← irqBrkVector]
  refine ⟨fun hnmi => ?_, fun hpending hedge hirq hi => ?_, fun hpending hedge hirq => ?_⟩
  · rw [serviceInterrupt_nmi s _ hinputs ((nmiDue_iff _).mpr hnmi)]; rfl
  · rw [serviceInterrupt_irq s _ hinputs (nmiDue_eq_false hpending hedge) (by simp [hirq, hi])]; rfl
  · refine serviceInterrupt_idle s _ hinputs (nmiDue_eq_false hpending hedge) ?_
    rcases hirq with h | h <;> simp [h]

/-! ### Without request inputs (R236) -/

/-- A step leaves absent inputs absent. -/
theorem step_inputs_absent {s t : State} (h : s.inputs = none) (hstep : step s = .next t) : t.inputs = none := by
  rw [step_inputs hstep, h]; rfl

/-- The state with another value in I. -/
def State.putI (b : Bool) (s : State) : State := { s with i := b }

/-- No branch tests I (R194 to R201). -/
theorem branchEffect_putI (i : Instr) (b : Bool) (s : State) :
    branchEffect i (s.putI b) = (branchEffect i s).putI b := by
  unfold branchEffect
  rw [show branchTaken i (s.putI b) = branchTaken i s from rfl]
  split <;> rfl

/-- The effect of an instruction that does not read I: I keeps its value, or is written with one that does not depend on
it. -/
theorem effectOf_putI {i : Instr} (hphp : i.operation ≠ .PHP) (hbrk : i.operation ≠ .BRK) (b : Bool) (s : State) :
    effectOf i (s.putI b) =
      if StatusFlag.I ∈ flagsWritten i.operation then effectOf i s else (effectOf i s).putI b := by
  cases i
  case php => exact absurd rfl hphp
  case brk => exact absurd rfl hbrk
  -- these four write I, and not from its value before
  case cli | sei | plp | rti => rfl
  case bpl | bmi | bvc | bvs | bcc | bcs | bne | beq => exact branchEffect_putI _ b s
  -- the others neither write I nor look at it
  all_goals rfl

theorem cost_putI (i : Instr) (b : Bool) (s : State) :
    costOf i (s.putI b) + branchExtraOf i (s.putI b) = costOf i s + branchExtraOf i s := by
  cases i <;> rfl

theorem afterExec_putI {i : Instr} (hphp : i.operation ≠ .PHP) (hbrk : i.operation ≠ .BRK) (b : Bool) (s : State) :
    afterExec i (s.putI b) =
      if StatusFlag.I ∈ flagsWritten i.operation then afterExec i s else (afterExec i s).putI b := by
  rw [afterExec, effectOf_putI hphp hbrk, cost_putI]
  split <;> rfl

/-- Settles O60: the three clauses on absent inputs have each a law, and `exec` is `afterExec`, which I does not enter. -/
theorem withoutInputsInterruptDisableIsInert : Obligations.WithoutInputsInterruptDisableIsInert := by
  refine ⟨fun s h => ⟨serviceInterrupt_absent s h, fun irq nmi => present_absent irq nmi s h, fun t => ?_⟩,
    fun i s b hphp hbrk => ⟨afterExec i s, exec_eq_afterExec i s, ?_⟩⟩
  · exact step_inputs_absent h
  · exact (exec_eq_afterExec i (s.putI b)).trans (congrArg _ (afterExec_putI hphp hbrk b s))

end Sys2Proof.Machine
end
